-- ==== Sys2Proof/Word.lean ====
section
/-! DEFINITION. The widths of the Sensor Control Core (spec 00_scope.md R12): bytes, 32-bit operands and
results, the 48-bit command word (R91) and the 16-bit table entry (R98). -/

namespace Sys2Proof

/-- A byte: sensor register addresses and contents, opcodes, gain codes (R12, R60). -/
abbrev Byte := BitVec 8

/-- A u32: operands, results, attribute fields (R12, R21, R22, R30). -/
abbrev U32 := BitVec 32

/-- A command word `OP ARG1 ARG0` (R91). -/
abbrev CommandWord := BitVec 48

/-- A table entry `address value` (R98). -/
abbrev EntryWord := BitVec 16

end Sys2Proof
end

