-- ==== Sys2Proof/Syntax.lean ====
section
/-! DEFINITION. The two instruction levels of the SCC (spec 30_encoding.md R90): the commands of format C (R91, R96) and
the table entries of format T (R98, R99). A command carries both operand fields, the ones it ignores too, so that no
bit of a command word is lost. -/

namespace Sys2Proof

/-- One constructor per row of spec/opcode_table.json. -/
inductive Instr where
  /-- `DETECT`, 0x01 (R172); both operands ignored. -/
  | detect (arg1 : Byte) (arg0 : U32)
  /-- `INIT`, 0x02 (R176); `arg0` the mode id. -/
  | init (arg1 : Byte) (arg0 : U32)
  /-- `STREAM_ON`, 0x03 (R178); both operands ignored. -/
  | streamOn (arg1 : Byte) (arg0 : U32)
  /-- `STREAM_OFF`, 0x04 (R179); both operands ignored. -/
  | streamOff (arg1 : Byte) (arg0 : U32)
  /-- `SET_INTEGRATION_TIME`, 0x10 (R162); bits 15:0 of `arg0` the value. -/
  | setIntegrationTime (arg1 : Byte) (arg0 : U32)
  /-- `SET_ANALOG_GAIN`, 0x11 (R135); `arg0` the GainValue. -/
  | setAnalogGain (arg1 : Byte) (arg0 : U32)
  /-- `SET_DIGITAL_GAIN`, 0x12 (R136); both operands ignored. -/
  | setDigitalGain (arg1 : Byte) (arg0 : U32)
  /-- `GET_BLACK_LEVEL`, 0x13 (R182); both operands ignored. -/
  | getBlackLevel (arg1 : Byte) (arg0 : U32)
  /-- `RESIZE`, 0x14 (R177); `arg0` the mode id. -/
  | resize (arg1 : Byte) (arg0 : U32)
  /-- `PREPARE_CHANGE`, 0x15 (R180); both operands ignored. -/
  | prepareChange (arg1 : Byte) (arg0 : U32)
  /-- `FINISH_CHANGE`, 0x16 (R181); both operands ignored. -/
  | finishChange (arg1 : Byte) (arg0 : U32)
  /-- `SET_FPS`, 0x17 (R160); `arg0` the packed rate. -/
  | setFps (arg1 : Byte) (arg0 : U32)
  /-- `GAIN_ENCODE`, 0x20 (R132); `arg1` the shift, `arg0` the GainValue. -/
  | gainEncode (arg1 : Byte) (arg0 : U32)
  /-- `GAIN_DECODE`, 0x21 (R133); `arg1` the shift, bits 7:0 of `arg0` the code. -/
  | gainDecode (arg1 : Byte) (arg0 : U32)
  /-- `DGAIN_ENCODE`, 0x22 (R134); `arg0` the GainValue, `arg1` ignored. -/
  | dgainEncode (arg1 : Byte) (arg0 : U32)
  /-- `UNKNOWN` (R97, R183): every opcode with no row of its own. -/
  | unknown (op arg1 : Byte) (arg0 : U32)
  /-- `TE`, end of table, address byte 0xFF (R204); the value byte is ignored. -/
  | te (value : Byte)
  /-- `TD`, delay, address byte 0xFE (R205); the value byte is the milliseconds. -/
  | td (value : Byte)
  /-- `TW`, write, any other address byte (R202). -/
  | tw (address value : Byte)
deriving DecidableEq, Repr

end Sys2Proof
end

