-- ==== Sys2Proof/WellFormed.lean ====
section
/-! DEFINITION. Which instructions an encoding stands for (spec 30_encoding.md R96, R97, R99): `UNKNOWN` has an opcode of
no named row, `TW` an address byte other than 0xFE and 0xFF. Every operand of every other instruction is free. -/

namespace Sys2Proof

/-- The fifteen opcodes of R96. -/
def namedOpcodes : List Byte :=
  [0x01#8, 0x02#8, 0x03#8, 0x04#8, 0x10#8, 0x11#8, 0x12#8, 0x13#8, 0x14#8, 0x15#8, 0x16#8, 0x17#8, 0x20#8, 0x21#8,
   0x22#8]

/-- The instruction is one that some word stands for. -/
def Instr.wellFormed : Instr → Bool
  | .unknown op _ _ => !namedOpcodes.contains op
  | .tw address _ => address != 0xFE#8 && address != 0xFF#8
  | .detect _ _ | .init _ _ | .streamOn _ _ | .streamOff _ _ | .setIntegrationTime _ _ | .setAnalogGain _ _
  | .setDigitalGain _ _ | .getBlackLevel _ _ | .resize _ _ | .prepareChange _ _ | .finishChange _ _ | .setFps _ _
  | .gainEncode _ _ | .gainDecode _ _ | .dgainEncode _ _ | .te _ | .td _ => true

end Sys2Proof
end

