-- ==== Sys2Proof/Decode.lean ====
section
/-! DEFINITION. Decoding of command words and table entries (spec 30_encoding.md R90 to R99), and the encoder written from
the same tables. Both decoders are total: there is no illegal word of either format (R97, R99). -/

namespace Sys2Proof

/-! ## Fields -/

/-- `OP`, bits 47:40 of a command word (R91). -/
def opField (w : CommandWord) : Byte := w.extractLsb' 40 8

/-- `ARG1`, bits 39:32 of a command word (R91). -/
def arg1Field (w : CommandWord) : Byte := w.extractLsb' 32 8

/-- `ARG0`, bits 31:0 of a command word (R91). -/
def arg0Field (w : CommandWord) : U32 := w.extractLsb' 0 32

/-- The command word with these three fields (R91). -/
def packCommand (op arg1 : Byte) (arg0 : U32) : CommandWord := (op ++ arg1 ++ arg0 : BitVec (8 + 8 + 32))

/-- The address byte, bits 15:8 of a table entry (R98). -/
def addressField (e : EntryWord) : Byte := e.extractLsb' 8 8

/-- The value byte, bits 7:0 of a table entry (R98). -/
def valueField (e : EntryWord) : Byte := e.extractLsb' 0 8

/-- The entry with this address byte and value byte; in a byte-addressed store the address byte comes first (R98). -/
def packEntry (address value : Byte) : EntryWord := (address ++ value : BitVec (8 + 8))

/-! ## Decoding -/

/-- The command selected by `OP`, rows in the table's order, first match wins, `UNKNOWN` last (R96, R97). -/
def decodeFields (op arg1 : Byte) (arg0 : U32) : Instr :=
  if op = 0x01#8 then .detect arg1 arg0
  else if op = 0x02#8 then .init arg1 arg0
  else if op = 0x03#8 then .streamOn arg1 arg0
  else if op = 0x04#8 then .streamOff arg1 arg0
  else if op = 0x10#8 then .setIntegrationTime arg1 arg0
  else if op = 0x11#8 then .setAnalogGain arg1 arg0
  else if op = 0x12#8 then .setDigitalGain arg1 arg0
  else if op = 0x13#8 then .getBlackLevel arg1 arg0
  else if op = 0x14#8 then .resize arg1 arg0
  else if op = 0x15#8 then .prepareChange arg1 arg0
  else if op = 0x16#8 then .finishChange arg1 arg0
  else if op = 0x17#8 then .setFps arg1 arg0
  else if op = 0x20#8 then .gainEncode arg1 arg0
  else if op = 0x21#8 then .gainDecode arg1 arg0
  else if op = 0x22#8 then .dgainEncode arg1 arg0
  else .unknown op arg1 arg0

/-- The instruction a command word stands for (R91, R96, R97). -/
def decodeCommand (w : CommandWord) : Instr := decodeFields (opField w) (arg1Field w) (arg0Field w)

/-- The entry kind, selected by the address byte alone (R99). -/
def decodeEntry (e : EntryWord) : Instr :=
  if addressField e = 0xFF#8 then .te (valueField e)
  else if addressField e = 0xFE#8 then .td (valueField e)
  else .tw (addressField e) (valueField e)

/-- A word of one of the two formats (R90). -/
inductive Encoded where
  | command (w : CommandWord)
  | entry (e : EntryWord)
deriving DecidableEq, Repr

/-- The instruction a word of either format stands for. -/
def decode : Encoded → Instr
  | .command w => decodeCommand w
  | .entry e => decodeEntry e

/-- Why bits handed to the decoder are no word of the SCC: neither format has that width (R90). -/
inductive DecodeError where
  | noFormatOfWidth (nbits : Nat)
deriving DecidableEq, Repr

/-- The word of `nbits` bits with value `w`: 48 bits are a command word, 16 bits a table entry (R90). -/
def wordOf (nbits w : Nat) : Except DecodeError Encoded :=
  if nbits = 48 then .ok (.command (BitVec.ofNat 48 w))
  else if nbits = 16 then .ok (.entry (BitVec.ofNat 16 w))
  else .error (.noFormatOfWidth nbits)

/-- The instruction the decoder reads from `nbits` bits of value `w`, bit 0 the least significant. -/
def decodeTableWord (nbits w : Nat) : Option Instr :=
  match wordOf nbits w with
  | .ok e => some (decode e)
  | .error _ => none

/-- A RegisterTable from the bytes of a byte-addressed store: entry `i` is bytes `2i` (address) and `2i+1` (value);
a last odd byte is no entry (R98). -/
def entriesOfBytes : List Byte → List EntryWord
  | a :: v :: rest => packEntry a v :: entriesOfBytes rest
  | [_] => []
  | [] => []

/-! ## Encoding -/

/-- The word of an instruction (R91, R96, R98, R99). -/
def encode : Instr → Encoded
  | .detect arg1 arg0 => .command (packCommand 0x01#8 arg1 arg0)
  | .init arg1 arg0 => .command (packCommand 0x02#8 arg1 arg0)
  | .streamOn arg1 arg0 => .command (packCommand 0x03#8 arg1 arg0)
  | .streamOff arg1 arg0 => .command (packCommand 0x04#8 arg1 arg0)
  | .setIntegrationTime arg1 arg0 => .command (packCommand 0x10#8 arg1 arg0)
  | .setAnalogGain arg1 arg0 => .command (packCommand 0x11#8 arg1 arg0)
  | .setDigitalGain arg1 arg0 => .command (packCommand 0x12#8 arg1 arg0)
  | .getBlackLevel arg1 arg0 => .command (packCommand 0x13#8 arg1 arg0)
  | .resize arg1 arg0 => .command (packCommand 0x14#8 arg1 arg0)
  | .prepareChange arg1 arg0 => .command (packCommand 0x15#8 arg1 arg0)
  | .finishChange arg1 arg0 => .command (packCommand 0x16#8 arg1 arg0)
  | .setFps arg1 arg0 => .command (packCommand 0x17#8 arg1 arg0)
  | .gainEncode arg1 arg0 => .command (packCommand 0x20#8 arg1 arg0)
  | .gainDecode arg1 arg0 => .command (packCommand 0x21#8 arg1 arg0)
  | .dgainEncode arg1 arg0 => .command (packCommand 0x22#8 arg1 arg0)
  | .unknown op arg1 arg0 => .command (packCommand op arg1 arg0)
  | .te value => .entry (packEntry 0xFF#8 value)
  | .td value => .entry (packEntry 0xFE#8 value)
  | .tw address value => .entry (packEntry address value)

end Sys2Proof
end

