-- ==== Sys2Proof/Config.lean ====
section
/-! DEFINITION. The configuration record CFG (spec 00_scope.md R6 to R10), the reference configuration REFCFG
(95_test_vectors.md section 1.1), and the free values: the answers of the bus and GPIO environments (20_memory.md
R62) and the numeric functions of a non-default `NUMERICS` (40_gain_codec.md R122), none of which has a body. -/

namespace Sys2Proof

/-- The answer of `MemWrite` and of `GpioRequest` (R15, R16). -/
inductive Reply where
  | ok
  | err
deriving DecidableEq, Repr, Inhabited

/-- The answer of `MemRead`: a byte or an error (R15). -/
inductive ReadReply where
  | ok (v : Byte)
  | err
deriving DecidableEq, Repr, Inhabited

/-- A GPIO level (R16). -/
inductive Level where
  | high
  | low
deriving DecidableEq, Repr, Inhabited

/-- Which instance of `CFG.NUMERICS` is configured (R7, R122): the default exact-floor pair of R123 and R124, or
another instance of the contract of R122, named by a number and otherwise free. -/
inductive Numerics where
  | exactFloor
  | custom (id : Nat)
deriving DecidableEq, Repr, Inhabited

/-- A ModeDescriptor (R9, R34); `table` is its RegisterTable, the entries in index order (R35). -/
structure ModeDescriptor where
  width : U32
  height : U32
  frameRate : U32
  pixelFormatCode : U32
  colorSpace : U32
  table : List EntryWord
deriving DecidableEq, Repr

/-- `ATTR_INIT` (R9, R31): the attach-time value of every SensorAttributes field except `MAX_AGAIN`, and except
`MAX_DGAIN`, which R31 takes from `CFG.MAX_DGAIN`. -/
structure AttrInit where
  minIntegrationTime : U32
  minIntegrationTimeNative : U32
  maxIntegrationTime : U32
  maxIntegrationTimeNative : U32
  integrationTimeLimit : U32
  integrationTimeApplyDelay : U32
  againApplyDelay : U32
  dgainApplyDelay : U32
  totalWidth : U32
  totalHeight : U32
  oneLineDuration : U32
deriving DecidableEq, Repr

/-- The configuration record CFG (R6). Ranges that the types do not carry are checked by `Machine.cfgOk` (R11). -/
structure Cfg where
  /-- `GFP`, fractional bits of a linear magnitude (R7). -/
  gfp : Nat
  /-- `ISP_SHIFT` (R7). -/
  ispShift : Nat
  /-- `MAX_AGAIN_NATIVE` (R7). -/
  maxAgainNative : U32
  /-- `MAX_AGAIN_ISP` (R7). -/
  maxAgainIsp : U32
  /-- `MAX_DGAIN` (R7). -/
  maxDgain : U32
  /-- `NUMERICS` (R7, R122). -/
  numerics : Numerics
  /-- `PCLK` in Hz (R8). -/
  pclk : Nat
  /-- `MIN_FPS` (R8). -/
  minFps : Nat
  /-- `MAX_FPS` (R8). -/
  maxFps : Nat
  /-- `ID_H_ADDR` (R9). -/
  idHAddr : Byte
  /-- `ID_L_ADDR` (R9). -/
  idLAddr : Byte
  /-- `ID_H_VAL` (R9). -/
  idHVal : Byte
  /-- `ID_L_VAL` (R9). -/
  idLVal : Byte
  /-- `HTS_L_ADDR` (R9). -/
  htsLAddr : Byte
  /-- `HTS_H_ADDR` (R9). -/
  htsHAddr : Byte
  /-- `VTS_L_ADDR` (R9). -/
  vtsLAddr : Byte
  /-- `VTS_H_ADDR` (R9). -/
  vtsHAddr : Byte
  /-- `GRP_CTRL_ADDR` (R9). -/
  grpCtrlAddr : Byte
  /-- `AGAIN_ADDR` (R9). -/
  againAddr : Byte
  /-- `EXPO_L_ADDR` (R9). -/
  expoLAddr : Byte
  /-- `EXPO_H_ADDR` (R9). -/
  expoHAddr : Byte
  /-- `MODE[0 .. N_MODES-1]`, the mode file (R9, R34); `N_MODES` is its length. -/
  modes : List ModeDescriptor
  /-- `STREAM_ON_TABLE` (R9). -/
  streamOnTable : List EntryWord
  /-- `STREAM_OFF_TABLE` (R9). -/
  streamOffTable : List EntryWord
  /-- `ATTR_INIT` (R9, R31). -/
  attrInit : AttrInit
  /-- `RESET_PIN`, `none` for `NONE` (R10). -/
  resetPin : Option Nat
  /-- `PWDN_PIN`, `none` for `NONE` (R10). -/
  pwdnPin : Option Nat
  /-- `BUS_WIDTH_SEL`, read by no rule (R10, R237). -/
  busWidthSel : Nat
  /-- `T_RST_1`, ms (R10). -/
  tRst1 : Nat
  /-- `T_RST_2`, ms (R10). -/
  tRst2 : Nat
  /-- `T_RST_3`, ms (R10). -/
  tRst3 : Nat
  /-- `PWDN_SEQ`, a list of (level, ms) (R10). -/
  pwdnSeq : List (Level × Nat)
deriving DecidableEq, Repr

/-- REFCFG, the one configuration the spec writes out (95_test_vectors.md section 1.1). `State.reset` uses it; no
rule depends on it (log entry 1). -/
def refCfg : Cfg where
  gfp := 16
  ispShift := 16
  maxAgainNative := 0x000F8000#32
  maxAgainIsp := 0x0003F446#32
  maxDgain := 0#32
  numerics := .exactFloor
  pclk := 43200000
  minFps := 5
  maxFps := 30
  idHAddr := 0x0A#8
  idLAddr := 0x0B#8
  idHVal := 0xA5#8
  idLVal := 0x5A#8
  htsLAddr := 0x20#8
  htsHAddr := 0x21#8
  vtsLAddr := 0x22#8
  vtsHAddr := 0x23#8
  grpCtrlAddr := 0x1F#8
  againAddr := 0x00#8
  expoLAddr := 0x01#8
  expoHAddr := 0x02#8
  modes :=
    [{ width := 1280#32, height := 720#32, frameRate := 0x00190001#32, pixelFormatCode := 1#32, colorSpace := 1#32,
       table := [0x1240#16, 0xFE05#16, 0x2024#16, 0x2104#16, 0xFF00#16] },
     { width := 640#32, height := 480#32, frameRate := 0x001E0001#32, pixelFormatCode := 1#32, colorSpace := 1#32,
       table := [0x1241#16, 0xFF00#16] }]
  streamOnTable := [0x1200#16, 0xFF00#16]
  streamOffTable := [0x1240#16, 0xFF00#16]
  attrInit :=
    { minIntegrationTime := 2#32, minIntegrationTimeNative := 2#32, maxIntegrationTime := 811#32,
      maxIntegrationTimeNative := 811#32, integrationTimeLimit := 811#32, integrationTimeApplyDelay := 2#32,
      againApplyDelay := 2#32, dgainApplyDelay := 2#32, totalWidth := 2120#32, totalHeight := 815#32,
      oneLineDuration := 49#32 }
  resetPin := some 18
  pwdnPin := none
  busWidthSel := 0
  tRst1 := 5
  tRst2 := 10
  tRst3 := 20
  pwdnSeq := []

namespace Config

/-- The free answer to the `n`-th bus read, at address `a` (R62, U7, U8). No body: any answer (log entry 2). -/
opaque readReply (n : Nat) (a : Byte) : ReadReply

/-- The free answer to the `n`-th bus write, of `v` at address `a` (R62, U8). No body: any answer (log entry 2). -/
opaque writeReply (n : Nat) (a v : Byte) : Reply

/-- The free answer to the `n`-th GPIO request, for `pin` (R62, U8). No body: any answer (log entry 2). -/
opaque gpioReply (n pin : Nat) : Reply

/-- The free part of `EXP2` of the numerics instance `id`, brought under the contract of R122 by
`Machine.exp2Custom` (U1, log entry 7). -/
opaque exp2Raw (id gfp g s : Nat) : Nat

/-- The free part of `LOG2` of the numerics instance `id`, brought under the contract of R122 by
`Machine.log2Custom` (U1, log entry 7). -/
opaque log2Raw (id gfp l s : Nat) : Nat

end Config

end Sys2Proof
end

