-- ==== Sys2Proof/Machine/State.lean ====
section
/-! DEFINITION. The state of the SCC (spec 10_state.md R20 to R42), the port events (20_memory.md R61), the reasons a step
can stop, and the state after attach (R41, 70_reset_and_hazards.md R260). -/

namespace Sys2Proof.Machine

/-- `PHASE` (R25); the reserved codes 5 to 7 are never written (U13). The 3-bit code is `phaseCode`. -/
inductive Phase where
  | preDetect
  | uninitialized
  | configured
  | streaming
  | detectFailed
deriving DecidableEq, Repr

/-- The SensorAttributes record `ATTR`, in the order of R30. -/
structure Attr where
  minIntegrationTime : U32
  minIntegrationTimeNative : U32
  maxIntegrationTime : U32
  maxIntegrationTimeNative : U32
  integrationTimeLimit : U32
  maxAgain : U32
  maxDgain : U32
  integrationTimeApplyDelay : U32
  againApplyDelay : U32
  dgainApplyDelay : U32
  totalWidth : U32
  totalHeight : U32
  oneLineDuration : U32
deriving DecidableEq, Repr

/-- The VideoDescriptor, payload of the host notification (R37). -/
structure VideoDescriptor where
  mode : Byte
  width : U32
  height : U32
  pixelFormatCode : U32
  colorSpace : U32
  fps : U32
deriving DecidableEq, Repr

/-- A port event (R61); `notify` is `Notify(VIDEO_IN_SYNC, vd)`, the one event kind of that hook (R229). -/
inductive Event where
  | rd (address : Byte) (answer : ReadReply)
  | wr (address value : Byte) (answer : Reply)
  | sleep (ms : Nat)
  | gpioReq (pin : Nat) (answer : Reply)
  | gpioSet (pin : Nat) (level : Level)
  | gpioRel (pin : Nat)
  | notify (vd : VideoDescriptor)
  | resp (status res0 res1 : U32)
deriving DecidableEq, Repr

/-- The name of a RegisterTable of CFG (R35). -/
inductive TableId where
  | mode (k : Nat)
  | streamOn
  | streamOff
deriving DecidableEq, Repr

/-- The table pointer `TP` (R38). -/
structure TablePtr where
  table : TableId
  index : Nat
deriving DecidableEq, Repr

/-- What the host presents at the command and lifecycle ports (R20, R91, R100). -/
inductive HostInput where
  | command (w : CommandWord)
  | attach
  | detach
deriving DecidableEq, Repr

/-- The state of one device instance. The fields from `cfg` on are not state of the SCC by R39; they are the arguments
of its step relation, held as plain data (log entries 1, 2, 4, 6). -/
@[ext]
structure State where
  /-- `OP` (R21). -/
  op : Byte
  /-- `ARG1` (R21). -/
  arg1 : Byte
  /-- `ARG0` (R21). -/
  arg0 : U32
  /-- `STATUS`, as its 32-bit two's-complement pattern (R22). -/
  status : U32
  /-- `RES0` (R22). -/
  res0 : U32
  /-- `RES1` (R22). -/
  res1 : U32
  /-- `BUSY` (R23). -/
  busy : Bool
  /-- `PHASE` (R25). -/
  phase : Phase
  /-- `ACTIVE_MODE`, 0xFF for `NONE` (R26). -/
  activeMode : Byte
  /-- `CUR_FPS`, a packed rational (R27). -/
  curFps : U32
  /-- `LOG` (R28). -/
  log : Byte
  /-- `RST_HELD` (R29). -/
  rstHeld : Bool
  /-- `PWDN_HELD` (R29). -/
  pwdnHeld : Bool
  /-- `ATTR` (R30). -/
  attr : Attr
  /-- `TP`, `none` while it does not exist (R38). -/
  tp : Option TablePtr
  /-- CFG, fixed for the life of the instance (R6). -/
  cfg : Cfg
  /-- The host inputs not yet taken, in the order the host issues them (R69). -/
  host : List HostInput
  /-- The answers to bus reads given in advance, by their number from 0 (R62). -/
  readAnswers : List ReadReply
  /-- The answers to bus writes given in advance, by their number from 0 (R62). -/
  writeAnswers : List Reply
  /-- The answers to GPIO requests given in advance, by their number from 0 (R62). -/
  gpioAnswers : List Reply
  /-- How many bus reads were answered. -/
  reads : Nat
  /-- How many bus writes were answered. -/
  writes : Nat
  /-- How many GPIO requests were answered. -/
  gpios : Nat
  /-- The event trace, oldest first (R61). -/
  trace : List Event
deriving DecidableEq, Repr

/-- Why the machine stops. -/
inductive Fault where
  /-- Raised by the meanings of `TW`, `TD` and `TE` when no table application is in progress: `TP` does not exist, or at
  `TE` `OP` is no command that calls `APPLY` (R38, R200). Safe: the spec gives no entry an effect there, and no run
  from an attach reaches it (log entry 11). -/
  | entryOutsideApply
deriving DecidableEq, Repr

/-- Why the model gives a step no meaning. -/
inductive Refusal where
  /-- Raised by an arm of `exec` that has no meaning yet. Safe: nothing is claimed of it. -/
  | notModelled (mnemonic : String)
  /-- Raised by attach when CFG is not well formed: the SCC does not come to exist (R11, R260). Safe. -/
  | illFormedCfg
  /-- Raised by the table walker when a table has no entry at `TP`: the table lacks a `TE`, or CFG has no such table, so
  CFG is not well formed (R11, R204). Safe. -/
  | tableWithoutEnd
deriving DecidableEq, Repr

/-- `ATTR` after attach (R31). -/
def attrOfCfg (c : Cfg) : Attr where
  minIntegrationTime := c.attrInit.minIntegrationTime
  minIntegrationTimeNative := c.attrInit.minIntegrationTimeNative
  maxIntegrationTime := c.attrInit.maxIntegrationTime
  maxIntegrationTimeNative := c.attrInit.maxIntegrationTimeNative
  integrationTimeLimit := c.attrInit.integrationTimeLimit
  maxAgain := c.maxAgainIsp
  maxDgain := c.maxDgain
  integrationTimeApplyDelay := c.attrInit.integrationTimeApplyDelay
  againApplyDelay := c.attrInit.againApplyDelay
  dgainApplyDelay := c.attrInit.dgainApplyDelay
  totalWidth := c.attrInit.totalWidth
  totalHeight := c.attrInit.totalHeight
  oneLineDuration := c.attrInit.oneLineDuration

/-- The state after attach with configuration `c`, nothing presented by the host, no answer given in advance (R41,
R261). `OP`, `ARG1` and `ARG0` are unspecified there and 0 here (DESIGN CHOICE, unsafe, log entry 5). -/
def State.attached (c : Cfg) : State where
  op := 0#8
  arg1 := 0#8
  arg0 := 0#32
  status := 0#32
  res0 := 0#32
  res1 := 0#32
  busy := false
  phase := .preDetect
  activeMode := 0xFF#8
  curFps := 0#32
  log := 0#8
  rstHeld := false
  pwdnHeld := false
  attr := attrOfCfg c
  tp := none
  cfg := c
  host := []
  readAnswers := []
  writeAnswers := []
  gpioAnswers := []
  reads := 0
  writes := 0
  gpios := 0
  trace := []

/-- The machine right after reset: attached with REFCFG (log entry 1). -/
def State.reset : State := State.attached refCfg

end Sys2Proof.Machine
end

