-- ==== Sys2Proof/Machine/Flags.lean ====
section
/-! DEFINITION. The status flags of the SCC: the sticky bits of `LOG` (spec 10_state.md R28) and the handle bits `RST_HELD`,
`PWDN_HELD` (R29). No command reads a flag. -/

namespace Sys2Proof.Machine

/-- `LOG.UNKNOWN_CMD`, bit 0 (R28). -/
def unknownCmdBit : Byte := 0x01#8

/-- `LOG.RST_GPIO_UNAVAIL`, bit 1 (R28). -/
def rstGpioUnavailBit : Byte := 0x02#8

/-- `LOG.PWDN_GPIO_UNAVAIL`, bit 2 (R28). -/
def pwdnGpioUnavailBit : Byte := 0x04#8

/-- `LOG.FAULT`, bit 3 (R28, R226). -/
def faultBit : Byte := 0x08#8

/-- Set a bit of `LOG`; only attach clears one (R28). -/
def setLog (b : Byte) (s : State) : State := { s with log := s.log ||| b }

/-- `RST_HELD <- b` (R29). -/
def setRstHeld (b : Bool) (s : State) : State := { s with rstHeld := b }

/-- `PWDN_HELD <- b` (R29). -/
def setPwdnHeld (b : Bool) (s : State) : State := { s with pwdnHeld := b }

/-- `PHASE` lets device commands act: neither `PreDetect` nor `DetectFailed` (R170). -/
def detected (s : State) : Bool :=
  match s.phase with
  | .preDetect | .detectFailed => false
  | .uninitialized | .configured | .streaming => true

end Sys2Proof.Machine
end

