-- ==== Sys2Proof/Machine/Operands.lean ====
section
/-! DEFINITION. The operand forms of the SCC (spec 30_encoding.md R93 to R95, 40_gain_codec.md R131), the codes of `PHASE`
and `STATUS` (10_state.md R25, 60_exceptions.md R221), and the pseudo-operands `RATE` and `CODE` (R102). -/

namespace Sys2Proof.Machine

/-- Numerator of a packed rational, bits 31:16 (R93). -/
def numerator (r : U32) : Nat := (r.extractLsb' 16 16).toNat

/-- Denominator of a packed rational, bits 15:0 (R93). -/
def denominator (r : U32) : Nat := (r.extractLsb' 0 16).toNat

/-- `RATE(n, d)`, the packed rational `(n << 16) | d` (R93, R102). -/
def rate (n d : BitVec 16) : U32 := (n ++ d : BitVec (16 + 16))

/-- Exponent of a SensorGainCode, bits 7:4 (R94). -/
def codeExponent (c : Byte) : Nat := (c.extractLsb' 4 4).toNat

/-- Mantissa of a SensorGainCode, bits 3:0 (R94). -/
def codeMantissa (c : Byte) : Nat := (c.extractLsb' 0 4).toNat

/-- `CODE(e, m)`, the gain code `(e << 4) | m` (R94, R102). -/
def gainCode (e m : Nat) : Byte := BitVec.ofNat 8 (e * 16 + m)

/-- `ARG0[7:0]`: the code of `GAIN_DECODE`, the low byte of a split value (R94, R63). -/
def lowByte (v : U32) : Byte := v.extractLsb' 0 8

/-- `ARG0[15:8]`: the high byte of a 16-bit value split over two registers (R63). -/
def highByte (v : U32) : Byte := v.extractLsb' 8 8

/-- The `shift` operand, values above 28 taken as 28 (R131). -/
def shiftOperand (shift : Nat) : Nat := min shift 28

/-- The mode descriptor a mode id names: a u32 compared with `N_MODES` (R95, R176). -/
def modeOperand (c : Cfg) (k : U32) : Option ModeDescriptor := c.modes[k.toNat]?

/-- The 3-bit code of `PHASE` (R25). -/
def phaseCode : Phase → BitVec 3
  | .preDetect => 0#3
  | .uninitialized => 1#3
  | .configured => 2#3
  | .streaming => 3#3
  | .detectFailed => 4#3

/-- The error kinds of R221. -/
inductive ErrorKind where
  | busFailure
  | notDetected
  | outOfRange
  | gpioUnavailable
  | internalFault
deriving DecidableEq, Repr

/-- The `STATUS` pattern of an error kind (R221). -/
def statusCode : ErrorKind → U32
  | .busFailure => 0xFFFFFFFF#32
  | .notDetected => 0xFFFFFFFE#32
  | .outOfRange => 0xFFFFFFFD#32
  | .gpioUnavailable => 0xFFFFFFFC#32
  | .internalFault => 0xFFFFFFFB#32

end Sys2Proof.Machine
end

