-- ==== Sys2Proof/Machine/Numerics.lean ====
section
/-! DEFINITION. The functions of the Gain Codec (spec 40_gain_codec.md): `DLIN` (R121), the numerics `EXP2` and `LOG2` (R122
to R124), the table `LOG2TAB` (R125), the closed forms `RELOG`, `MANT` (R126) and `ENC` (R129), and `ENC`, `DEC` for
any instance (R127, R128, R130). All arithmetic is on natural numbers, narrowed at the end (R163). -/

namespace Sys2Proof.Machine

/-! ## Linear magnitude and the exact-floor numerics -/

/-- `DLIN(code)` as a natural number (R121). -/
def dlin (gfp : Nat) (code : Byte) : Nat :=
  (1 <<< (codeExponent code + gfp)) ||| (codeMantissa code <<< (gfp + codeExponent code - 4))

/-- The default `EXP2(g, s)`, `floor(2^GFP * 2^(g / 2^s))`: the largest `L` with `L^(2^s) <= 2^(GFP * 2^s + g)` (R123).
It is a specification; nothing evaluates it (R123, last sentence but one). -/
def exp2Floor (gfp g s : Nat) : Nat :=
  Nat.findGreatest (fun l => l ^ 2 ^ s ≤ 2 ^ (gfp * 2 ^ s + g)) (2 ^ (gfp + g / 2 ^ s + 1))

/-- The default `LOG2(L, s)`: 0 for `L <= 2^GFP`, else `floor(2^s * log2(L / 2^GFP))` (R124). A specification; the
commands use the closed form `relog`. -/
def log2Floor (gfp l s : Nat) : Nat :=
  if l ≤ 2 ^ gfp then 0 else Nat.log2 (l ^ 2 ^ s) - gfp * 2 ^ s

/-- `LOG2TAB[m] = floor(2^32 * log2(1 + m/16))` (R125). -/
def log2Tab : List Nat :=
  [0x00000000, 0x1663F6FA, 0x2B803473, 0x3F782D72, 0x5269E12F, 0x646EEA24, 0x759D4F80, 0x86082806,
   0x95C01A39, 0xA4D3C25E, 0xB3500472, 0xC1404EAD, 0xCEAECFEA, 0xDBA4A47A, 0xE829FB69, 0xF446359B]

/-- `LOG2TAB[m] >> (32 - s)` (R125). -/
def threshold (m s : Nat) : Nat := log2Tab.getD m 0 >>> (32 - s)

/-- `RELOG(code, s) = (e << s) + (LOG2TAB[m] >> (32 - s))` (R126 (1)). -/
def relog (code : Byte) (s : Nat) : Nat := (codeExponent code <<< s) + threshold (codeMantissa code) s

/-- `MANT(f, s)`: how many `j` in 1 to 15 have `f > LOG2TAB[j] >> (32 - s)` (R126 (2)). -/
def mant (f s : Nat) : Nat := ((List.range' 1 15).filter (fun j => decide (threshold j s < f))).length

/-! ## Another instance of the contract of R122 -/

/-- The values of `EXP2` inside one octave `n`, from `f = 0` up: the free value brought into
`[2^(GFP+n), 2^(GFP+n+1))` and made non-decreasing (R122 (a), (b), (c)). Every `EXP2` of the contract arises. -/
def exp2Octave (id gfp s n : Nat) : Nat → Nat
  | 0 => 2 ^ (gfp + n)
  | f + 1 =>
    max (exp2Octave id gfp s n f)
      (min (Config.exp2Raw id gfp (n * 2 ^ s + (f + 1)) s) (2 ^ (gfp + n + 1) - 1))

/-- `EXP2` of the instance `id` (R122). -/
def exp2Custom (id gfp g s : Nat) : Nat := exp2Octave id gfp s (g / 2 ^ s) (g % 2 ^ s)

/-- The values of `LOG2` upward from `L = 2^(GFP+k)`, `d` above it: the free value brought into
`[k << s, cap]` and made non-decreasing (R122 (d), (e)). Every `LOG2` of the contract arises. -/
def log2Octave (id gfp s k cap : Nat) : Nat → Nat
  | 0 => k * 2 ^ s
  | d + 1 =>
    max (log2Octave id gfp s k cap d) (min (Config.log2Raw id gfp (2 ^ (gfp + k) + (d + 1)) s) cap)

/-- `LOG2` of the instance `id` (R122): pinned at the powers of two up to `k = 15`, a u32 above. -/
def log2Custom (id gfp l s : Nat) : Nat :=
  if l ≤ 2 ^ gfp then 0
  else
    let k := min 15 (Nat.log2 l - gfp)
    log2Octave id gfp s k (if k < 15 then (k + 1) * 2 ^ s else 2 ^ 32 - 1) (l - 2 ^ (gfp + k))

/-- `EXP2` of a configured instance (R122). -/
def exp2 (nm : Numerics) (gfp g s : Nat) : Nat :=
  match nm with
  | .exactFloor => exp2Floor gfp g s
  | .custom id => exp2Custom id gfp g s

/-- `LOG2` of a configured instance (R122). -/
def log2 (nm : Numerics) (gfp l s : Nat) : Nat :=
  match nm with
  | .exactFloor => log2Floor gfp l s
  | .custom id => log2Custom id gfp l s

/-! ## Encode and decode -/

/-- Saturation to the exponent window `[2^GFP, 2^(GFP+4) - 1]` (R128). -/
def windowed (gfp l : Nat) : Nat := min (max l (1 <<< gfp)) ((1 <<< (gfp + 4)) - 1)

/-- Step 3 of encode: the highest set bit among positions `GFP+3` down to `GFP` (R127). -/
def scanIndex (gfp l : Nat) : Nat :=
  if l.testBit (gfp + 3) then 3
  else if l.testBit (gfp + 2) then 2
  else if l.testBit (gfp + 1) then 1
  else 0

/-- Steps 3 to 5 of encode on a windowed magnitude (R127). -/
def codeOfMagnitude (gfp lw : Nat) : Byte :=
  gainCode (scanIndex gfp lw) ((lw >>> (gfp + scanIndex gfp lw - 4)) % 16)

/-- `ENC(g, s)` for any instance of the numerics, `s` already clamped, `maxAgain` the value of `ATTR.MAX_AGAIN`: the
code and the achieved gain (R127). -/
def encBy (nm : Numerics) (gfp maxAgain g s : Nat) : Byte × Nat :=
  let code := codeOfMagnitude gfp (windowed gfp (exp2 nm gfp (min g maxAgain) s))
  (code, log2 nm gfp (dlin gfp code) s)

/-- The code of `ENC` under the default numerics, for a gain already clamped to `ATTR.MAX_AGAIN` (R129). -/
def closedCode (g1 s : Nat) : Byte :=
  if 4 ≤ g1 >>> s then 0x3F#8 else gainCode (g1 >>> s) (mant (g1 % 2 ^ s) s)

/-- `ENC(g, s)` under the default numerics, in closed form (R129). -/
def encClosed (maxAgain g s : Nat) : Byte × Nat :=
  (closedCode (min g maxAgain) s, relog (closedCode (min g maxAgain) s) s)

/-- `ENC(g, shift)`: the closed form under the default numerics (R129), R127 under any other; `shift` above 28 is
28 (R131). -/
def encodeGain (c : Cfg) (maxAgain g : U32) (shift : Nat) : Byte × U32 :=
  match c.numerics with
  | .exactFloor =>
    ((encClosed maxAgain.toNat g.toNat (shiftOperand shift)).1,
     BitVec.ofNat 32 (encClosed maxAgain.toNat g.toNat (shiftOperand shift)).2)
  | .custom id =>
    ((encBy (.custom id) c.gfp maxAgain.toNat g.toNat (shiftOperand shift)).1,
     BitVec.ofNat 32 (encBy (.custom id) c.gfp maxAgain.toNat g.toNat (shiftOperand shift)).2)

/-- `LOG2(DLIN(code), s)`: `RELOG` under the default numerics (R126), the instance's `LOG2` under any other. -/
def logOfCode (nm : Numerics) (gfp : Nat) (code : Byte) (s : Nat) : Nat :=
  match nm with
  | .exactFloor => relog code s
  | .custom id => log2Custom id gfp (dlin gfp code) s

/-- `DEC(code, shift)`: the log2-domain value and the linear magnitude (R130). -/
def decodeGain (c : Cfg) (code : Byte) (shift : Nat) : U32 × U32 :=
  (BitVec.ofNat 32 (logOfCode c.numerics c.gfp code (shiftOperand shift)), BitVec.ofNat 32 (dlin c.gfp code))

end Sys2Proof.Machine
end

