-- ==== Sys2Proof/Machine/Ops.lean ====
section
/-! DEFINITION. The shared operations of the SCC: well-formedness of CFG (spec 00_scope.md R11), the port primitives (R15,
R16, 20_memory.md R61, R62), the end of a command (R17, 60_exceptions.md R231), the phase gate (42_mode_state.md R170),
the host notification (10_state.md R37), the table walker `APPLY` (43_register_table.md R201), the acceptance of a
command word (R23, R91), attach and detach (70_reset_and_hazards.md R260, R262) and the status register file (R40). -/

namespace Sys2Proof.Machine

/-! ## Well-formed configurations (R11) -/

/-- The table has an entry whose address byte is 0xFF (R11, R204). -/
def tableHasEnd (t : List EntryWord) : Bool := t.any (fun e => addressField e == 0xFF#8)

/-- `MAX_AGAIN_NATIVE` is `DLIN` of a code with exponent 0 to 3 and `MAX_AGAIN_ISP` is its `LOG2` (R7, R11). -/
def maxAgainOk (c : Cfg) : Bool :=
  (List.range 64).any (fun k =>
    dlin c.gfp (BitVec.ofNat 8 k) == c.maxAgainNative.toNat &&
    logOfCode c.numerics c.gfp (BitVec.ofNat 8 k) c.ispShift == c.maxAgainIsp.toNat)

/-- CFG is well formed: the ranges of R7 to R10 that the types do not carry, the conversion of `max_again`, a `TE` in
every table (R11). -/
def cfgOk (c : Cfg) : Bool :=
  decide (4 ≤ c.gfp) && decide (c.gfp ≤ 16) && decide (c.ispShift ≤ 28) && maxAgainOk c &&
  decide (1 ≤ c.pclk) && decide (c.pclk < 2 ^ 32) &&
  decide (1 ≤ c.minFps) && decide (c.minFps ≤ c.maxFps) && decide (c.maxFps ≤ 65535) &&
  decide (1 ≤ c.modes.length) && decide (c.modes.length ≤ 255) &&
  c.modes.all (fun m => tableHasEnd m.table) && tableHasEnd c.streamOnTable && tableHasEnd c.streamOffTable

/-! ## Port primitives and the event trace -/

/-- Append an event to the trace (R61). -/
def emit (e : Event) (s : State) : State := { s with trace := s.trace ++ [e] }

/-- The environment's answer to the `k`-th bus read from now: the one given in advance, else a free one (R62). -/
def readReply (s : State) (k : Nat) (a : Byte) : ReadReply :=
  s.readAnswers[s.reads + k]?.getD (Config.readReply (s.reads + k) a)

/-- The environment's answer to the `k`-th bus write from now (R62). -/
def writeReply (s : State) (k : Nat) (a v : Byte) : Reply :=
  s.writeAnswers[s.writes + k]?.getD (Config.writeReply (s.writes + k) a v)

/-- The environment's answer to the `k`-th GPIO request from now (R62). -/
def gpioReply (s : State) (k pin : Nat) : Reply :=
  s.gpioAnswers[s.gpios + k]?.getD (Config.gpioReply (s.gpios + k) pin)

/-- The state after `MemRead(a, 1)` was answered (R15, R61). -/
def afterRead (a : Byte) (s : State) : State :=
  { s with reads := s.reads + 1, trace := s.trace ++ [.rd a (readReply s 0 a)] }

/-- The state after `MemWrite(a, 1, v)` was answered (R15, R61). -/
def afterWrite (a v : Byte) (s : State) : State :=
  { s with writes := s.writes + 1, trace := s.trace ++ [.wr a v (writeReply s 0 a v)] }

/-- The state after `GpioRequest(pin)` was answered (R16, R61). -/
def afterGpioRequest (pin : Nat) (s : State) : State :=
  { s with gpios := s.gpios + 1, trace := s.trace ++ [.gpioReq pin (gpioReply s 0 pin)] }

/-- `MemRead(a, 1)` (R15). -/
def memRead (a : Byte) (s : State) : ReadReply × State := (readReply s 0 a, afterRead a s)

/-- `MemWrite(a, 1, v)` (R15). -/
def memWrite (a v : Byte) (s : State) : Reply × State := (writeReply s 0 a v, afterWrite a v s)

/-- `GpioRequest(pin)` (R16). -/
def gpioRequest (pin : Nat) (s : State) : Reply × State := (gpioReply s 0 pin, afterGpioRequest pin s)

/-- `Sleep(ms)`: an event, and no time (R16, R236, R273). -/
def sleep (ms : Nat) (s : State) : State := emit (.sleep ms) s

/-- `GpioSet(pin, level)` (R16). -/
def gpioSet (pin : Nat) (l : Level) (s : State) : State := emit (.gpioSet pin l) s

/-- `GpioRelease(pin)` (R16); with no pin configured there is no handle and no event. -/
def gpioRelease (pin : Option Nat) (s : State) : State :=
  match pin with
  | none => s
  | some p => emit (.gpioRel p) s

/-! ## The end of a command -/

/-- Load `STATUS`, append `Resp`, clear `BUSY` (R17, R92, R272). -/
def finish (code : U32) (s : State) : State :=
  { s with status := code, busy := false, trace := s.trace ++ [.resp code s.res0 s.res1] }

/-- `done` (R17). -/
def done (s : State) : State := finish 0#32 s

/-- `raise kind`, the whole of "trap entry": nothing is saved, restored or rolled back, and there is no return (R17,
R220, R231, R232). -/
def raise (k : ErrorKind) (s : State) : State := finish (statusCode k) s

/-- The phase gate of every device command: `NotDetected` in `PreDetect` and `DetectFailed` (R170). -/
def gated (s : State) (body : Host.Outcome State Fault Refusal) : Host.Outcome State Fault Refusal :=
  if detected s then body else .next (raise .notDetected s)

/-! ## The host notification -/

/-- The descriptor of the active mode, if there is one (R26, R37). -/
def activeDescriptor (s : State) : Option ModeDescriptor :=
  if s.activeMode = 0xFF#8 then none else s.cfg.modes[s.activeMode.toNat]?

/-- The VideoDescriptor, a view of the state; zeros for the mode's members while no mode is active (R37). -/
def videoDescriptor (s : State) : VideoDescriptor :=
  match activeDescriptor s with
  | none => { mode := s.activeMode, width := 0#32, height := 0#32, pixelFormatCode := 0#32, colorSpace := 0#32,
              fps := s.curFps }
  | some d => { mode := s.activeMode, width := d.width, height := d.height, pixelFormatCode := d.pixelFormatCode,
                colorSpace := d.colorSpace, fps := s.curFps }

/-- `Notify(VIDEO_IN_SYNC, vd)` with `vd` of the state at the call (R37, R229). -/
def notify (s : State) : State := emit (.notify (videoDescriptor s)) s

/-! ## The table walker -/

/-- The RegisterTable a name stands for (R35). -/
def tableOf (c : Cfg) : TableId → Option (List EntryWord)
  | .mode k => (c.modes[k]?).map ModeDescriptor.table
  | .streamOn => some c.streamOnTable
  | .streamOff => some c.streamOffTable

/-- `TP <- (T, 0)`: a table application starts (R38, R201). -/
def startTable (t : TableId) (s : State) : State := { s with tp := some { table := t, index := 0 } }

/-- `TP <- (T, TP.i + 1)` (R201). -/
def advanceTable (s : State) : State :=
  { s with tp := s.tp.map (fun p => { p with index := p.index + 1 }) }

/-- The table application ends and `TP` is discarded (R38). -/
def leaveTable (s : State) : State := { s with tp := none }

/-- A `TW` entry: write; on `Ok` the next entry, on `Err` the table is left (R202, R206). -/
def walkWrite (a v : Byte) (s : State) : Reply × State :=
  match memWrite a v s with
  | (.ok, s1) => (.ok, advanceTable s1)
  | (.err, s1) => (.err, leaveTable s1)

/-- A `TD` entry: sleep, then the next entry (R205). -/
def walkDelay (v : Byte) (s : State) : State := advanceTable (sleep v.toNat s)

/-- What an entry word selects, by its address byte alone (R99). -/
inductive EntryKind where
  | stop
  | delay (v : Byte)
  | write (a v : Byte)
deriving DecidableEq, Repr

/-- The kind of an entry word (R99, R201). -/
def entryKind (e : EntryWord) : EntryKind :=
  if addressField e = 0xFF#8 then .stop
  else if addressField e = 0xFE#8 then .delay (valueField e)
  else .write (addressField e) (valueField e)

/-- How `APPLY` returns: `Ok`, `Err`, or past the end of a table that has no `TE`, which no well-formed CFG holds
(R201, R204). -/
inductive ApplyResult where
  | ok (s : State)
  | err (s : State)
  | overrun
deriving DecidableEq, Repr

/-- The loop of `APPLY` from the entries still to run (R201). -/
def applyFrom : List EntryWord → State → ApplyResult
  | [], _ => .overrun
  | e :: rest, s =>
    match entryKind e with
    | .stop => .ok (leaveTable s)
    | .delay v => applyFrom rest (walkDelay v s)
    | .write a v =>
      match walkWrite a v s with
      | (.ok, s1) => applyFrom rest s1
      | (.err, s1) => .err s1

/-- `APPLY(T)` (R201). -/
def apply (t : TableId) (s : State) : ApplyResult :=
  match tableOf s.cfg t with
  | none => .overrun
  | some entries => applyFrom entries (startTable t s)

/-- A command that applies a table and then ends with `onOk`; an aborted table is `BusFailure` (R206, R222). -/
def withTable (t : TableId) (onOk : State → State) (s : State) : Host.Outcome State Fault Refusal :=
  match apply t s with
  | .ok s1 => .next (onOk s1)
  | .err s1 => .next (raise .busFailure s1)
  | .overrun => .refused .tableWithoutEnd

/-- The entry `TP` points at (R201). -/
def fetchEntry (s : State) (p : TablePtr) : Option EntryWord :=
  match tableOf s.cfg p.table with
  | none => none
  | some entries => entries[p.index]?

/-! ## What a command does after its table was applied -/

/-- `INIT(k)` after its table: record the mode and its rate, `Configured`, notify (R176). -/
def finishInit (k : U32) (d : ModeDescriptor) (s : State) : State :=
  done (notify { s with activeMode := k.setWidth 8, curFps := d.frameRate, phase := .configured })

/-- The phase after a successful `RESIZE` (R171, R177). -/
def phaseAfterResize : Phase → Phase
  | .uninitialized => .configured
  | .preDetect => .preDetect
  | .configured => .configured
  | .streaming => .streaming
  | .detectFailed => .detectFailed

/-- `RESIZE(k)` after its table, or without it on the active mode (R177). -/
def finishResize (k : U32) (d : ModeDescriptor) (s : State) : State :=
  done (notify { s with activeMode := k.setWidth 8, curFps := d.frameRate, phase := phaseAfterResize s.phase })

/-- The phase after a successful stream-on (R171, R178). -/
def phaseAfterStreamOn : Phase → Phase
  | .configured => .streaming
  | .preDetect => .preDetect
  | .uninitialized => .uninitialized
  | .streaming => .streaming
  | .detectFailed => .detectFailed

/-- Stream-on after its table (R178, R181). -/
def finishStreamOn (s : State) : State := done { s with phase := phaseAfterStreamOn s.phase }

/-- The phase after a successful stream-off (R171, R179). -/
def phaseAfterStreamOff : Phase → Phase
  | .streaming => .configured
  | .preDetect => .preDetect
  | .uninitialized => .uninitialized
  | .configured => .configured
  | .detectFailed => .detectFailed

/-- Stream-off after its table (R179, R180). -/
def finishStreamOff (s : State) : State := done { s with phase := phaseAfterStreamOff s.phase }

/-- The rest of the command in progress, read from `OP` and `ARG0`, once `APPLY` has returned `Ok`; `none` where `OP` is
no command that calls `APPLY` (R200, R208; DEDUCED, log entry 12). -/
def resumeCommand (s : State) : Option State :=
  if s.op = 0x02#8 then (modeOperand s.cfg s.arg0).map (fun d => finishInit s.arg0 d s)
  else if s.op = 0x14#8 then (modeOperand s.cfg s.arg0).map (fun d => finishResize s.arg0 d s)
  else if s.op = 0x03#8 then some (finishStreamOn s)
  else if s.op = 0x16#8 then some (finishStreamOn s)
  else if s.op = 0x04#8 then some (finishStreamOff s)
  else if s.op = 0x15#8 then some (finishStreamOff s)
  else none

/-! ## The command port and the lifecycle port -/

/-- Acceptance of a command word: the operand registers are loaded and `BUSY` set (R21, R23, R91). -/
def accept (w : CommandWord) (s : State) : State :=
  { s with op := opField w, arg1 := arg1Field w, arg0 := arg0Field w, busy := true }

/-- Release the handles held, the reset pin first (R260, R262). -/
def releaseHandles (s : State) : State :=
  let s1 := if s.rstHeld then setRstHeld false (gpioRelease s.cfg.resetPin s) else s
  if s1.pwdnHeld then setPwdnHeld false (gpioRelease s1.cfg.pwdnPin s1) else s1

/-- Load every piece of state with its value after attach (R41); CFG, the host's further inputs, the environment and the
trace are not the SCC's. -/
def loadAttachValues (s : State) : State :=
  { s with
    op := 0#8, arg1 := 0#8, arg0 := 0#32, status := 0#32, res0 := 0#32, res1 := 0#32, busy := false,
    phase := .preDetect, activeMode := 0xFF#8, curFps := 0#32, log := 0#8, rstHeld := false, pwdnHeld := false,
    attr := attrOfCfg s.cfg, tp := none }

/-- Attach: refused on a CFG that is not well formed, else handles released and every value loaded (R11, R260). -/
def attach (s : State) : Host.Outcome State Fault Refusal :=
  if cfgOk s.cfg then .next (loadAttachValues (releaseHandles s)) else .refused .illFormedCfg

/-- Detach: handles released, back to `PreDetect` with no mode and no rate; the instance is then a `PreDetect` one that
keeps its other values (R262; log entry 8). -/
def detach (s : State) : State :=
  { releaseHandles s with phase := .preDetect, activeMode := 0xFF#8, curFps := 0#32, busy := false }

/-! ## The status register file -/

/-- `SR[i]`: what the host reads at index `i`, 0 where the spec lists no register (R40). -/
def statusRegister (s : State) (i : Byte) : U32 :=
  match i.toNat with
  | 0x00 => s.status
  | 0x01 => s.res0
  | 0x02 => s.res1
  | 0x03 => (phaseCode s.phase).setWidth 32
  | 0x04 => s.activeMode.setWidth 32
  | 0x05 => s.curFps
  | 0x06 => s.log.setWidth 32
  | 0x07 => (BitVec.ofBool s.pwdnHeld ++ BitVec.ofBool s.rstHeld : BitVec (1 + 1)).setWidth 32
  | 0x10 => s.attr.minIntegrationTime
  | 0x11 => s.attr.minIntegrationTimeNative
  | 0x12 => s.attr.maxIntegrationTime
  | 0x13 => s.attr.maxIntegrationTimeNative
  | 0x14 => s.attr.integrationTimeLimit
  | 0x15 => s.attr.maxAgain
  | 0x16 => s.attr.maxDgain
  | 0x17 => s.attr.integrationTimeApplyDelay
  | 0x18 => s.attr.againApplyDelay
  | 0x19 => s.attr.dgainApplyDelay
  | 0x1A => s.attr.totalWidth
  | 0x1B => s.attr.totalHeight
  | 0x1C => s.attr.oneLineDuration
  | 0x20 => (videoDescriptor s).width
  | 0x21 => (videoDescriptor s).height
  | 0x22 => (videoDescriptor s).pixelFormatCode
  | 0x23 => (videoDescriptor s).colorSpace
  | _ => 0#32

end Sys2Proof.Machine
end

