-- ==== Sys2Proof/Machine/GainCodec.lean ====
section
/-! DEFINITION. The commands of the Gain Codec (spec 40_gain_codec.md R132 to R136). -/

namespace Sys2Proof.Machine

/-- Load the two result registers (R22). -/
def setResults (r0 r1 : U32) (s : State) : State := { s with res0 := r0, res1 := r1 }

/-- `GAIN_ENCODE(isp_gain, shift)` (R132). -/
def execGainEncode (shift : Byte) (gain : U32) (s : State) : Host.Outcome State Fault Refusal :=
  .next (done (setResults (encodeGain s.cfg s.attr.maxAgain gain shift.toNat).2
    ((encodeGain s.cfg s.attr.maxAgain gain shift.toNat).1.setWidth 32) s))

/-- `GAIN_DECODE(code, shift)` (R133). -/
def execGainDecode (shift : Byte) (arg0 : U32) (s : State) : Host.Outcome State Fault Refusal :=
  .next (done (setResults (decodeGain s.cfg (lowByte arg0) shift.toNat).1
    (decodeGain s.cfg (lowByte arg0) shift.toNat).2 s))

/-- `DGAIN_ENCODE(isp_gain, shift)`: the identity (R134). -/
def execDgainEncode (gain : U32) (s : State) : Host.Outcome State Fault Refusal :=
  .next (done (setResults gain 0#32 s))

/-- The writing half of `SET_ANALOG_GAIN`: the code goes to `AGAIN_ADDR`, the results are loaded whatever the bus
answered, and a failed write is reported after (R135, R233). -/
def writeGain (code : Byte) (achieved : U32) (s : State) : State :=
  match memWrite s.cfg.againAddr code s with
  | (.ok, s1) => done (setResults achieved (code.setWidth 32) s1)
  | (.err, s1) => raise .busFailure (setResults achieved (code.setWidth 32) s1)

/-- `SET_ANALOG_GAIN(value)` (R135). -/
def execSetAnalogGain (gain : U32) (s : State) : Host.Outcome State Fault Refusal :=
  gated s (.next (writeGain (encodeGain s.cfg s.attr.maxAgain gain s.cfg.ispShift).1
    (encodeGain s.cfg s.attr.maxAgain gain s.cfg.ispShift).2 s))

/-- `SET_DIGITAL_GAIN(value)`, a no-op (R136). -/
def execSetDigitalGain (s : State) : Host.Outcome State Fault Refusal := .next (done s)

end Sys2Proof.Machine
end

