-- ==== Sys2Proof/Machine/ModeState.lean ====
section
/-! DEFINITION. The Mode/State Controller (spec 42_mode_state.md R170 to R183). -/

namespace Sys2Proof.Machine

/-! ## DETECT -/

/-- Drive a pulse on a pin: each level, then its wait (R173). -/
def pulse (pin : Nat) : List (Level × Nat) → State → State
  | [], s => s
  | (l, ms) :: rest, s => pulse pin rest (sleep ms (gpioSet pin l s))

/-- `RESET_SEQ`: high, low, high with the three configured waits (R10, R173). -/
def resetSeq (c : Cfg) : List (Level × Nat) := [(.high, c.tRst1), (.low, c.tRst2), (.high, c.tRst3)]

/-- `reset_pulse()` (R173). -/
def resetPulse (s : State) : State :=
  match s.cfg.resetPin with
  | none => s
  | some pin =>
    match gpioRequest pin s with
    | (.ok, s1) => pulse pin (resetSeq s1.cfg) (setRstHeld true s1)
    | (.err, s1) => setLog rstGpioUnavailBit s1

/-- `pwdn_pulse()` (R174). -/
def pwdnPulse (s : State) : State :=
  match s.cfg.pwdnPin with
  | none => s
  | some pin =>
    match gpioRequest pin s with
    | (.ok, s1) => pulse pin s1.cfg.pwdnSeq (setPwdnHeld true s1)
    | (.err, s1) => setLog pwdnGpioUnavailBit s1

/-- A failed detection: terminal until the next attach (R172, R175). -/
def failDetect (k : ErrorKind) (s : State) : State := raise k { s with phase := .detectFailed }

/-- The low identity byte, and success (R172, R175). -/
def checkIdentityLow (s : State) : State :=
  match memRead s.cfg.idLAddr s with
  | (.err, s1) => failDetect .busFailure s1
  | (.ok l, s1) => if l = s1.cfg.idLVal then done { s1 with phase := .uninitialized } else failDetect .notDetected s1

/-- `identity_check()`: the high byte first (R175). -/
def identityCheck (s : State) : State :=
  match memRead s.cfg.idHAddr s with
  | (.err, s1) => failDetect .busFailure s1
  | (.ok h, s1) => if h = s1.cfg.idHVal then checkIdentityLow s1 else failDetect .notDetected s1

/-- What `DETECT` does in each phase (R172). -/
def detectIn (s : State) : State :=
  match s.phase with
  | .preDetect => identityCheck (pwdnPulse (resetPulse s))
  | .uninitialized | .configured | .streaming => done s
  | .detectFailed => raise .notDetected s

/-- `DETECT()` (R172). -/
def execDetect (s : State) : Host.Outcome State Fault Refusal := .next (detectIn s)

/-! ## Modes -/

/-- `INIT(k)`: the table in full, whatever the active mode (R176). -/
def execInit (k : U32) (s : State) : Host.Outcome State Fault Refusal :=
  gated s
    (match modeOperand s.cfg k with
     | none => .next (raise .outOfRange s)
     | some d => withTable (.mode k.toNat) (finishInit k d) s)

/-- `RESIZE(k)`: the table only if `k` is not the active mode (R36, R177). -/
def execResize (k : U32) (s : State) : Host.Outcome State Fault Refusal :=
  gated s
    (match modeOperand s.cfg k with
     | none => .next (raise .outOfRange s)
     | some d =>
       if s.activeMode.toNat = k.toNat then .next (finishResize k d s)
       else withTable (.mode k.toNat) (finishResize k d) s)

/-! ## Streaming -/

/-- `STREAM_ON()` (R178). -/
def execStreamOn (s : State) : Host.Outcome State Fault Refusal := gated s (withTable .streamOn finishStreamOn s)

/-- `STREAM_OFF()` (R179). -/
def execStreamOff (s : State) : Host.Outcome State Fault Refusal := gated s (withTable .streamOff finishStreamOff s)

/-- `PREPARE_CHANGE()` issues stream-off (R180). -/
def execPrepareChange (s : State) : Host.Outcome State Fault Refusal :=
  gated s (withTable .streamOff finishStreamOff s)

/-- `FINISH_CHANGE()` issues stream-on (R181). -/
def execFinishChange (s : State) : Host.Outcome State Fault Refusal := gated s (withTable .streamOn finishStreamOn s)

/-! ## No-ops -/

/-- `GET_BLACK_LEVEL(value)`, a no-op (R182). -/
def execGetBlackLevel (s : State) : Host.Outcome State Fault Refusal := .next (done s)

/-- `UNKNOWN`: accepted, ignored, logged (R183). -/
def execUnknown (s : State) : Host.Outcome State Fault Refusal := .next (done (setLog unknownCmdBit s))

end Sys2Proof.Machine
end

