-- ==== Sys2Proof/Machine/TableWalker.lean ====
section
/-! DEFINITION. The entries of a register table (spec 43_register_table.md R202 to R206), each run on a state in which a table
application is in progress. -/

namespace Sys2Proof.Machine

/-- `TW`: write the byte; on `Err` the table is aborted and the calling command ends with `BusFailure` (R202, R206). -/
def execTw (a v : Byte) (s : State) : Host.Outcome State Fault Refusal :=
  match s.tp with
  | none => .fault .entryOutsideApply
  | some _ =>
    .next (match walkWrite a v s with
           | (.ok, s1) => s1
           | (.err, s1) => raise .busFailure s1)

/-- `TD`: sleep for the value byte's milliseconds (R205). -/
def execTd (v : Byte) (s : State) : Host.Outcome State Fault Refusal :=
  match s.tp with
  | none => .fault .entryOutsideApply
  | some _ => .next (walkDelay v s)

/-- `TE`: `APPLY` returns `Ok` and the calling command runs on to its end (R204, R208). -/
def execTe (s : State) : Host.Outcome State Fault Refusal :=
  match s.tp with
  | none => .fault .entryOutsideApply
  | some _ =>
    match resumeCommand (leaveTable s) with
    | none => .fault .entryOutsideApply
    | some t => .next t

end Sys2Proof.Machine
end

