-- ==== Sys2Proof/Machine/TimingEngine.lean ====
section
/-! DEFINITION. The Timing Engine (spec 41_timing_engine.md): `SET_FPS` (R151 to R161) and `SET_INTEGRATION_TIME` (R162). -/

namespace Sys2Proof.Machine

/-- `scaled`, 256 times the frame rate, truncated (R152). -/
def scaledFps (r : U32) : Nat :=
  ((numerator r / denominator r) <<< 8) + ((numerator r % denominator r) <<< 8) / denominator r

/-- The rate is one `SET_FPS` accepts: a denominator, and `scaled` in `[MIN_FPS << 8, MAX_FPS << 8]` (R151, R153). -/
def rateAccepted (c : Cfg) (r : U32) : Bool :=
  denominator r != 0 && decide (c.minFps <<< 8 ≤ scaledFps r) && decide (scaledFps r ≤ c.maxFps <<< 8)

/-- The horizontal total from its two register bytes (R154). -/
def horizontalTotal (hi lo : Byte) : Nat := (hi ++ lo : BitVec (8 + 8)).toNat <<< 1

/-- The vertical total (R155). -/
def verticalTotal (c : Cfg) (r : U32) (hts : Nat) : Nat := ((c.pclk * denominator r) / hts) / numerator r

/-- The attribute update of step 6a (R158). -/
def timedAttr (vt : U32) (a : Attr) : Attr :=
  { a with
    maxIntegrationTimeNative := vt - 4#32
    integrationTimeLimit := vt - 4#32
    totalHeight := vt
    maxIntegrationTime := vt - 4#32 }

/-- Step 6: the attributes, the rate, the notification, the end (R158, R159). -/
def commitTiming (r vt : U32) (s : State) : State :=
  done (notify { s with attr := timedAttr vt s.attr, curFps := r })

/-- Step 5 after the group-write flag: the low half, then the high half (R157). -/
def writeHalves (r vt : U32) (s : State) : State :=
  match memWrite s.cfg.vtsLAddr (lowByte vt) s with
  | (.err, s1) => raise .busFailure s1
  | (.ok, s1) =>
    match memWrite s1.cfg.vtsHAddr (highByte vt) s1 with
    | (.err, s2) => raise .busFailure s2
    | (.ok, s2) => commitTiming r vt s2

/-- Step 5: set the group-write flag by a read and a write, then program the two halves (R157). -/
def programTiming (r vt : U32) (s : State) : State :=
  match memRead s.cfg.grpCtrlAddr s with
  | (.err, s1) => raise .busFailure s1
  | (.ok c, s1) =>
    match memWrite s1.cfg.grpCtrlAddr (c ||| 0x80#8) s1 with
    | (.err, s2) => raise .busFailure s2
    | (.ok, s2) => writeHalves r vt s2

/-- Step 4, with the case of a horizontal total of 0 (R154, R155, R226). -/
def computeTiming (r : U32) (hts : Nat) (s : State) : State :=
  if hts = 0 then raise .internalFault (setLog faultBit s)
  else programTiming r (BitVec.ofNat 32 (verticalTotal s.cfg r hts)) s

/-- Step 3: the horizontal total, low byte first (R154). -/
def measureTiming (r : U32) (s : State) : State :=
  match memRead s.cfg.htsLAddr s with
  | (.err, s1) => raise .busFailure s1
  | (.ok lo, s1) =>
    match memRead s1.cfg.htsHAddr s1 with
    | (.err, s2) => raise .busFailure s2
    | (.ok hi, s2) => computeTiming r (horizontalTotal hi lo) s2

/-- `SET_FPS(packed_rate)` (R160). -/
def execSetFps (r : U32) (s : State) : Host.Outcome State Fault Refusal :=
  gated s (.next (if rateAccepted s.cfg r then measureTiming r s else raise .outOfRange s))

/-- The two writes of `SET_INTEGRATION_TIME`, both attempted, any failure reported after (R162, R233). -/
def writeExposure (v : U32) (s : State) : State :=
  let (r1, s1) := memWrite s.cfg.expoLAddr (lowByte v) s
  let (r2, s2) := memWrite s1.cfg.expoHAddr (highByte v) s1
  if r1 = .err ∨ r2 = .err then raise .busFailure s2 else done s2

/-- `SET_INTEGRATION_TIME(value)` (R162). -/
def execSetIntegrationTime (v : U32) (s : State) : Host.Outcome State Fault Refusal :=
  gated s (.next (writeExposure v s))

end Sys2Proof.Machine
end

