-- ==== Sys2Proof/Machine/Dispatch.lean ====
section
/-! DEFINITION. The meaning of each instruction, one arm per row of spec/opcode_table.json (30_encoding.md R96, R99). -/

namespace Sys2Proof.Machine

def exec (i : Instr) (s : State) : Host.Outcome State Fault Refusal :=
  match i with
  | .detect _ _ => Sys2Proof.Machine.execDetect s
  | .init _ arg0 => Sys2Proof.Machine.execInit arg0 s
  | .streamOn _ _ => Sys2Proof.Machine.execStreamOn s
  | .streamOff _ _ => Sys2Proof.Machine.execStreamOff s
  | .setIntegrationTime _ arg0 => Sys2Proof.Machine.execSetIntegrationTime arg0 s
  | .setAnalogGain _ arg0 => Sys2Proof.Machine.execSetAnalogGain arg0 s
  | .setDigitalGain _ _ => Sys2Proof.Machine.execSetDigitalGain s
  | .getBlackLevel _ _ => Sys2Proof.Machine.execGetBlackLevel s
  | .resize _ arg0 => Sys2Proof.Machine.execResize arg0 s
  | .prepareChange _ _ => Sys2Proof.Machine.execPrepareChange s
  | .finishChange _ _ => Sys2Proof.Machine.execFinishChange s
  | .setFps _ arg0 => Sys2Proof.Machine.execSetFps arg0 s
  | .gainEncode arg1 arg0 => Sys2Proof.Machine.execGainEncode arg1 arg0 s
  | .gainDecode arg1 arg0 => Sys2Proof.Machine.execGainDecode arg1 arg0 s
  | .dgainEncode _ arg0 => Sys2Proof.Machine.execDgainEncode arg0 s
  | .unknown _ _ _ => Sys2Proof.Machine.execUnknown s
  | .te _ => Sys2Proof.Machine.execTe s
  | .td value => Sys2Proof.Machine.execTd value s
  | .tw address value => Sys2Proof.Machine.execTw address value s

end Sys2Proof.Machine
end

