-- ==== Sys2Proof/Machine/Step.lean ====
section
/-! DEFINITION. One step of the SCC (spec 10_state.md R20, R23, R24): a table application in progress runs its next entry;
else the next host input is taken; with none presented the SCC waits. A command runs to its end within one step, its
table included (log entry 3). -/

namespace Sys2Proof.Machine

/-- The step function. -/
def step (s : State) : Host.Outcome State Fault Refusal :=
  match s.tp with
  | some p =>
    match fetchEntry s p with
    | none => .refused .tableWithoutEnd
    | some e => exec (decodeEntry e) s
  | none =>
    if s.busy then .next s
    else
      match s.host with
      | [] => .next s
      | .command w :: rest => exec (decodeCommand w) (accept w { s with host := rest })
      | .attach :: rest => attach { s with host := rest }
      | .detach :: rest => .next (detach { s with host := rest })

/-- Put a word where the next step fetches: a command word is presented by the host as its next input to an idle SCC; a
table entry becomes the first entry of `STREAM_ON_TABLE`, followed by a `TE`, with `STREAM_ON` in progress and `TP` at
that entry (log entry 4). -/
def State.withFetchWord (s : State) (nbits w : Nat) : State :=
  match wordOf nbits w with
  | .ok (.command c) => { s with tp := none, busy := false, host := .command c :: s.host }
  | .ok (.entry e) =>
    { s with
      tp := some { table := .streamOn, index := 0 }
      busy := true
      op := 0x03#8
      cfg := { s.cfg with streamOnTable := [e, 0xFF00#16] } }
  | .error _ => s

end Sys2Proof.Machine
end

