-- ==== Sys2Proof/Safety.lean ====
section
/-! DEFINITION. The terms in which claims about the SCC are made: what a run that goes on is, a well-formed configuration in the
spec's terms (spec 00_scope.md R11), the invariant of its states (10_state.md R26, R28, R29, R38; 60_exceptions.md R221), what a register table does when the bus accepts every write
(43_register_table.md R207), the phase table (42_mode_state.md R171) and the access table (43_register_table.md R209). -/

namespace Sys2Proof.Machine

/-! ## Going on -/

/-- The step was neither a fault nor a refusal. -/
def goesOn (o : Host.Outcome State Fault Refusal) : Prop := ∃ t, o = .next t

/-- `n` steps lead from one state to the other, each answering a next state. -/
def stepsTo : Nat → State → State → Prop
  | 0, s, t => s = t
  | n + 1, s, t => ∃ u, step s = .next u ∧ stepsTo n u t

/-- The run has met the internal fault, which is sticky until the next attach (R226, U3). -/
def faultFlagged (s : State) : Bool := s.log &&& faultBit == faultBit

/-! ## What a table writes -/

/-- The (address, value) pairs of the `TW` entries before the first `TE`, in order (R207). -/
def tableWrites : List EntryWord → List (Byte × Byte)
  | [] => []
  | e :: rest =>
    match entryKind e with
    | .stop => []
    | .delay _ => tableWrites rest
    | .write a v => (a, v) :: tableWrites rest

/-- The events of a table whose writes are all accepted: one per entry before the first `TE`, in order (R207). -/
def tableEvents : List EntryWord → List Event
  | [] => []
  | e :: rest =>
    match entryKind e with
    | .stop => []
    | .delay v => .sleep v.toNat :: tableEvents rest
    | .write a v => .wr a v .ok :: tableEvents rest

/-- The bus accepts the next writes, which are `ws` in order. -/
def writesAccepted (s : State) (ws : List (Byte × Byte)) : Prop :=
  ∀ (j : Nat) (h : j < ws.length), writeReply s j (ws[j]).1 (ws[j]).2 = .ok

/-- The table a command applies in a state whose phase lets it act: `RESIZE` to the active mode applies none (R177). -/
def tableOfCommand (i : Instr) (s : State) : Option TableId :=
  match i with
  | .init _ k => some (.mode k.toNat)
  | .resize _ k => if s.activeMode.toNat = k.toNat then none else some (.mode k.toNat)
  | .streamOn _ _ => some .streamOn
  | .finishChange _ _ => some .streamOn
  | .streamOff _ _ => some .streamOff
  | .prepareChange _ _ => some .streamOff
  | .detect _ _ | .setIntegrationTime _ _ | .setAnalogGain _ _ | .setDigitalGain _ _ | .getBlackLevel _ _
  | .setFps _ _ | .gainEncode _ _ | .gainDecode _ _ | .dgainEncode _ _ | .unknown _ _ _ | .te _ | .td _ | .tw _ _ =>
    none

/-! ## What DETECT does with its pins -/

/-- The events of one pin's stage of `DETECT`: nothing without a pin; the request, and its pulse if it was granted
(R173, R174). -/
def pinEvents (pin : Option Nat) (answer : Reply) (seq : List (Level × Nat)) : List Event :=
  match pin with
  | none => []
  | some p =>
    .gpioReq p answer ::
      (if answer = .ok then seq.flatMap (fun x => [Event.gpioSet p x.1, Event.sleep x.2]) else [])

/-- The number of requests a pin's stage makes. -/
def pinRequests (pin : Option Nat) : Nat := if pin.isSome then 1 else 0

/-- The answer to the reset pin's request in `DETECT` (any answer where there is no pin). -/
def resetAnswer (s : State) : Reply :=
  match s.cfg.resetPin with
  | none => .ok
  | some p => gpioReply s 0 p

/-- The answer to the power-down pin's request in `DETECT`, which comes after the reset pin's (any answer where there is
no pin). -/
def pwdnAnswer (s : State) : Reply :=
  match s.cfg.pwdnPin with
  | none => .ok
  | some p => gpioReply s (pinRequests s.cfg.resetPin) p

/-- The state of `DETECT` after both pin stages (R173, R174, R225): handles held where granted, `LOG` flags where
not. -/
def afterPins (s : State) : State :=
  { s with
    rstHeld := s.rstHeld || (s.cfg.resetPin.isSome && resetAnswer s == .ok)
    pwdnHeld := s.pwdnHeld || (s.cfg.pwdnPin.isSome && pwdnAnswer s == .ok)
    log :=
      s.log ||| (if s.cfg.resetPin.isSome && resetAnswer s == .err then 0x02#8 else 0#8) |||
        (if s.cfg.pwdnPin.isSome && pwdnAnswer s == .err then 0x04#8 else 0#8)
    gpios := s.gpios + pinRequests s.cfg.resetPin + pinRequests s.cfg.pwdnPin
    trace :=
      s.trace ++
        pinEvents s.cfg.resetPin (resetAnswer s) [(.high, s.cfg.tRst1), (.low, s.cfg.tRst2), (.high, s.cfg.tRst3)] ++
        pinEvents s.cfg.pwdnPin (pwdnAnswer s) s.cfg.pwdnSeq }

/-! ## Well-formed configurations -/

/-- A CFG that R11 calls well formed, in the spec's terms: the ranges of R7 to R10 that the types do not carry, the one
gain-domain conversion, a `TE` in every table (R203 makes the bound of R9 on table addresses hold by the encoding, log entry
20). -/
structure WellFormedCfg (c : Cfg) : Prop where
  /-- `GFP` is 4 to 16 (R7). -/
  gfp_range : 4 ≤ c.gfp ∧ c.gfp ≤ 16
  /-- `ISP_SHIFT` is 0 to 28 (R7). -/
  shift_range : c.ispShift ≤ 28
  /-- `MAX_AGAIN_NATIVE` is the linear magnitude of a code with exponent 0 to 3 (R7, R121). -/
  max_again_native : ∃ e m : Nat, e ≤ 3 ∧ m ≤ 15 ∧ c.maxAgainNative.toNat = 2 ^ (c.gfp + e - 4) * (16 + m)
  /-- `MAX_AGAIN_ISP = LOG2(MAX_AGAIN_NATIVE, ISP_SHIFT)` (R7, R11). -/
  max_again_isp : c.maxAgainIsp.toNat = log2 c.numerics c.gfp c.maxAgainNative.toNat c.ispShift
  /-- `PCLK` is 1 to 2^32 - 1 (R8). -/
  pclk_range : 1 ≤ c.pclk ∧ c.pclk ≤ 2 ^ 32 - 1
  /-- `MIN_FPS` and `MAX_FPS` are 1 to 65535, in this order (R8, R11). -/
  fps_range : 1 ≤ c.minFps ∧ c.minFps ≤ c.maxFps ∧ c.maxFps ≤ 65535
  /-- `N_MODES` is 1 to 255 (R9). -/
  modes_range : 1 ≤ c.modes.length ∧ c.modes.length ≤ 255
  /-- Every table has an entry whose address byte is 0xFF (R11, R204). -/
  mode_tables : ∀ d ∈ c.modes, ∃ e ∈ d.table, e.toNat / 256 = 0xFF
  /-- The stream-on table has one (R11, R204). -/
  stream_on_table : ∃ e ∈ c.streamOnTable, e.toNat / 256 = 0xFF
  /-- The stream-off table has one (R11, R204). -/
  stream_off_table : ∃ e ∈ c.streamOffTable, e.toNat / 256 = 0xFF

/-! ## The invariant -/

/-- The values `STATUS` may hold; -4 is never written (R221, R225). -/
def statusValues : List U32 := [0#32, 0xFFFFFFFF#32, 0xFFFFFFFE#32, 0xFFFFFFFD#32, 0xFFFFFFFB#32]

/-- The table the command in `OP` applies (R96, R200). -/
def callerTable (op : Byte) (arg0 : U32) : Option TableId :=
  if op = 0x02#8 ∨ op = 0x14#8 then some (.mode arg0.toNat)
  else if op = 0x03#8 ∨ op = 0x16#8 then some .streamOn
  else if op = 0x04#8 ∨ op = 0x15#8 then some .streamOff
  else none

/-- What every state of a run holds. -/
structure Inv (s : State) : Prop where
  /-- CFG is well formed (R11). -/
  cfg_ok : cfgOk s.cfg = true
  /-- A mode is active exactly in `Configured` and `Streaming` (R26, R185 (4)). -/
  mode_iff : (s.phase = .configured ∨ s.phase = .streaming) ↔ s.activeMode ≠ 0xFF#8
  /-- An active mode is an index below `N_MODES` (R26). -/
  mode_named : s.activeMode ≠ 0xFF#8 → s.activeMode.toNat < s.cfg.modes.length
  /-- `STATUS` holds a code of R221 that some command returns. -/
  status_known : s.status ∈ statusValues
  /-- `LOG` bits 7:4 read as 0 (R28). -/
  log_reserved : s.log &&& 0xF0#8 = 0#8
  /-- A reset handle is held only of a configured pin (R29). -/
  rst_pin : s.rstHeld = true → s.cfg.resetPin.isSome = true
  /-- A power-down handle is held only of a configured pin (R29). -/
  pwdn_pin : s.pwdnHeld = true → s.cfg.pwdnPin.isSome = true
  /-- Between steps `BUSY` is set exactly while a table application is in progress (R23, R38). -/
  busy_walk : s.busy = s.tp.isSome
  /-- A table application in progress is that of the command in `OP`, past the gate, with a `TE` still ahead (R38, R170,
  R204). -/
  walk : ∀ p, s.tp = some p →
    detected s = true ∧ callerTable s.op s.arg0 = some p.table ∧
      ∃ entries, tableOf s.cfg p.table = some entries ∧ tableHasEnd (entries.drop p.index) = true

/-! ## The tables of R170, R171 and R209 -/

/-- The device commands of R170. -/
def isDeviceCommand : Instr → Bool
  | .init _ _ | .streamOn _ _ | .streamOff _ _ | .setIntegrationTime _ _ | .setAnalogGain _ _ | .resize _ _
  | .prepareChange _ _ | .finishChange _ _ | .setFps _ _ => true
  | .detect _ _ | .setDigitalGain _ _ | .getBlackLevel _ _ | .gainEncode _ _ | .gainDecode _ _ | .dgainEncode _ _
  | .unknown _ _ _ | .te _ | .td _ | .tw _ _ => false

/-- The instruction is a command of format C (R90). -/
def isCommand : Instr → Bool
  | .te _ | .td _ | .tw _ _ => false
  | .detect _ _ | .init _ _ | .streamOn _ _ | .streamOff _ _ | .setIntegrationTime _ _ | .setAnalogGain _ _
  | .setDigitalGain _ _ | .getBlackLevel _ _ | .resize _ _ | .prepareChange _ _ | .finishChange _ _ | .setFps _ _
  | .gainEncode _ _ | .gainDecode _ _ | .dgainEncode _ _ | .unknown _ _ _ => true

/-- A column of the table of R171: the phase after a successful command, by the phase before; `none` is the table's dash,
"refused with `NotDetected`". -/
structure PhaseColumn where
  preDetect : Option Phase
  detectFailed : Option Phase
  uninitialized : Option Phase
  configured : Option Phase
  streaming : Option Phase

/-- The columns of R171. -/
def phaseColumn : Instr → PhaseColumn
  | .detect _ _ => ⟨some .uninitialized, none, some .uninitialized, some .configured, some .streaming⟩
  | .init _ _ => ⟨none, none, some .configured, some .configured, some .configured⟩
  | .resize _ _ => ⟨none, none, some .configured, some .configured, some .streaming⟩
  | .streamOn _ _ | .finishChange _ _ => ⟨none, none, some .uninitialized, some .streaming, some .streaming⟩
  | .streamOff _ _ | .prepareChange _ _ => ⟨none, none, some .uninitialized, some .configured, some .configured⟩
  | .setIntegrationTime _ _ | .setAnalogGain _ _ | .setFps _ _ =>
    ⟨none, none, some .uninitialized, some .configured, some .streaming⟩
  | .setDigitalGain _ _ | .getBlackLevel _ _ | .gainEncode _ _ | .gainDecode _ _ | .dgainEncode _ _ | .unknown _ _ _
  | .te _ | .td _ | .tw _ _ =>
    ⟨some .preDetect, some .detectFailed, some .uninitialized, some .configured, some .streaming⟩

/-- A cell of R171. -/
def PhaseColumn.cell (c : PhaseColumn) : Phase → Option Phase
  | .preDetect => c.preDetect
  | .detectFailed => c.detectFailed
  | .uninitialized => c.uninitialized
  | .configured => c.configured
  | .streaming => c.streaming

/-- The addresses read, in order, in a list of events. -/
def readAddresses (evs : List Event) : List Byte :=
  evs.filterMap (fun e => match e with
    | .rd a _ => some a
    | .wr _ _ _ | .sleep _ | .gpioReq _ _ | .gpioSet _ _ | .gpioRel _ | .notify _ | .resp _ _ _ => none)

/-- The addresses written, in order, in a list of events. -/
def writeAddresses (evs : List Event) : List Byte :=
  evs.filterMap (fun e => match e with
    | .wr a _ _ => some a
    | .rd _ _ | .sleep _ | .gpioReq _ _ | .gpioSet _ _ | .gpioRel _ | .notify _ | .resp _ _ _ => none)

/-- The event is one of the GPIO port (R237). -/
def isGpioEvent : Event → Bool
  | .gpioReq _ _ | .gpioSet _ _ | .gpioRel _ => true
  | .rd _ _ | .wr _ _ _ | .sleep _ | .notify _ | .resp _ _ _ => false

/-- The event is a response (R92). -/
def isResponse : Event → Bool
  | .resp _ _ _ => true
  | .rd _ _ | .wr _ _ _ | .sleep _ | .notify _ | .gpioReq _ _ | .gpioSet _ _ | .gpioRel _ => false

/-- A bus access of R209: a load by its address, a store by its address and byte. -/
inductive Access where
  | load (a : Byte)
  | store (a v : Byte)
deriving DecidableEq, Repr

/-- The bus accesses, in order, in a list of events. -/
def busAccesses (evs : List Event) : List Access :=
  evs.filterMap (fun e => match e with
    | .rd a _ => some (.load a)
    | .wr a v _ => some (.store a v)
    | .sleep _ | .gpioReq _ _ | .gpioSet _ _ | .gpioRel _ | .notify _ | .resp _ _ _ => none)

/-- The accesses of `SET_FPS` in the row of R209: three loads, then three stores, whose bytes rest on the bytes the loads
read; after a failed load there are none. -/
def fpsAccesses (s : State) (r : U32) : List Access :=
  [.load s.cfg.htsLAddr, .load s.cfg.htsHAddr, .load s.cfg.grpCtrlAddr] ++
    match readReply s 0 s.cfg.htsLAddr, readReply s 1 s.cfg.htsHAddr, readReply s 2 s.cfg.grpCtrlAddr with
    | .ok lo, .ok hi, .ok c =>
      let vt := s.cfg.pclk * (r.toNat % 65536) / (2 * (256 * hi.toNat + lo.toNat)) / (r.toNat / 65536)
      [.store s.cfg.grpCtrlAddr (c ||| 0x80#8), .store s.cfg.vtsLAddr (BitVec.ofNat 8 vt),
       .store s.cfg.vtsHAddr (BitVec.ofNat 8 (vt / 256))]
    | .err, _, _ | .ok _, .err, _ | .ok _, .ok _, .err => []

/-- The row of R209 of a command: its loads and stores, in order, the stores with their bytes; a table's stores are its
`TW` entries before the first `TE`. -/
def accessesOf (s : State) (i : Instr) : List Access :=
  match tableOfCommand i s with
  | some t => (tableWrites ((tableOf s.cfg t).getD [])).map (fun p => .store p.1 p.2)
  | none =>
    match i with
    | .detect _ _ => [.load s.cfg.idHAddr, .load s.cfg.idLAddr]
    | .setFps _ r => fpsAccesses s r
    | .setIntegrationTime _ v =>
      [.store s.cfg.expoLAddr (BitVec.ofNat 8 v.toNat), .store s.cfg.expoHAddr (BitVec.ofNat 8 (v.toNat / 256))]
    | .setAnalogGain _ g => [.store s.cfg.againAddr (encodeGain s.cfg s.attr.maxAgain g s.cfg.ispShift).1]
    | .init _ _ | .streamOn _ _ | .streamOff _ _ | .setDigitalGain _ _ | .getBlackLevel _ _ | .resize _ _
    | .prepareChange _ _ | .finishChange _ _ | .gainEncode _ _ | .gainDecode _ _ | .dgainEncode _ _
    | .unknown _ _ _ | .te _ | .td _ | .tw _ _ => []

/-- The bound of R272 on the port events of a command, its `Resp` apart: counts of the rule, and a table's entries
before its first `TE` plus the notification of `INIT` and `RESIZE`. -/
def eventBound (s : State) (i : Instr) : Nat :=
  match i with
  | .setFps _ _ => 7
  | .setIntegrationTime _ _ => 2
  | .setAnalogGain _ _ => 1
  | .detect _ _ => 10 + 2 * s.cfg.pwdnSeq.length
  | .init _ k => (tableEvents ((tableOf s.cfg (.mode k.toNat)).getD [])).length + 1
  | .resize _ k => (tableEvents ((tableOf s.cfg (.mode k.toNat)).getD [])).length + 1
  | .streamOn _ _ => (tableEvents s.cfg.streamOnTable).length
  | .finishChange _ _ => (tableEvents s.cfg.streamOnTable).length
  | .streamOff _ _ => (tableEvents s.cfg.streamOffTable).length
  | .prepareChange _ _ => (tableEvents s.cfg.streamOffTable).length
  | .setDigitalGain _ _ | .getBlackLevel _ _ | .gainEncode _ _ | .gainDecode _ _ | .dgainEncode _ _ | .unknown _ _ _
  | .te _ | .td _ | .tw _ _ => 0

end Sys2Proof.Machine
end

