-- ==== Sys2Proof/Certificates/Slice0/Obligations.lean ====
section
/-! DEFINITION. The statements about the SCC, from the numbered rules of spec/. A next state is written out as a whole
(`{ s with … }`), so that every field not named in it is unchanged; the SCC has no data memory, and what it sends to the
bus stands in the trace. -/

open Sys2Proof Sys2Proof.Machine

/-! ## Encoding -/

/-- Decoding the word of a well-formed instruction gives it back, every operand bit included (R91, R96 to R99). -/
def Obligations.DecodeEncodeRoundTrip : Prop :=
  ∀ i : Instr, i.wellFormed = true → decode (encode i) = i

/-- Every word of either format decodes to a well-formed instruction whose word it is: nothing is illegal and no two words
stand for one instruction (R97, R99). -/
def Obligations.EncodeDecodeRoundTrip : Prop :=
  ∀ e : Encoded, (decode e).wellFormed = true ∧ encode (decode e) = e

/-- The opcode map of commands: what each value of bits 47:40 selects, with `ARG1` and `ARG0` whole in the instruction, and
`UNKNOWN` for every other value (R96). -/
def Obligations.OpcodeSelectsCommand : Prop :=
  ∀ w : CommandWord,
    let op := w.toNat / 2 ^ 40
    let a : Byte := BitVec.ofNat 8 (w.toNat / 2 ^ 32)
    let v : U32 := BitVec.ofNat 32 w.toNat
    (op = 0x01 → decodeCommand w = .detect a v) ∧ (op = 0x02 → decodeCommand w = .init a v) ∧
    (op = 0x03 → decodeCommand w = .streamOn a v) ∧ (op = 0x04 → decodeCommand w = .streamOff a v) ∧
    (op = 0x10 → decodeCommand w = .setIntegrationTime a v) ∧ (op = 0x11 → decodeCommand w = .setAnalogGain a v) ∧
    (op = 0x12 → decodeCommand w = .setDigitalGain a v) ∧ (op = 0x13 → decodeCommand w = .getBlackLevel a v) ∧
    (op = 0x14 → decodeCommand w = .resize a v) ∧ (op = 0x15 → decodeCommand w = .prepareChange a v) ∧
    (op = 0x16 → decodeCommand w = .finishChange a v) ∧ (op = 0x17 → decodeCommand w = .setFps a v) ∧
    (op = 0x20 → decodeCommand w = .gainEncode a v) ∧ (op = 0x21 → decodeCommand w = .gainDecode a v) ∧
    (op = 0x22 → decodeCommand w = .dgainEncode a v) ∧
    (op = 0 ∨ (0x04 < op ∧ op < 0x10) ∨ (0x17 < op ∧ op < 0x20) ∨ 0x22 < op →
      decodeCommand w = .unknown (BitVec.ofNat 8 op) a v)

/-- What the address byte of a table entry, bits 15:8, selects: `TE`, `TD` or a `TW` to that address; every entry has a
meaning (R99). -/
def Obligations.AddressByteSelectsEntry : Prop :=
  ∀ e : EntryWord,
    let a := e.toNat / 256
    let v : Byte := BitVec.ofNat 8 e.toNat
    (a = 0xFF → decodeEntry e = .te v) ∧ (a = 0xFE → decodeEntry e = .td v) ∧
    (a ≤ 0xFD → decodeEntry e = .tw (BitVec.ofNat 8 a) v)

/-- The command words and entries that the spec writes out with their meaning (R101, R132, R133, R176, R177, R202, R205,
R204). -/
def Obligations.SpecWordsDecode : Prop :=
  decodeCommand 0x170000190001#48 = .setFps 0x00#8 0x00190001#32 ∧
  decodeCommand 0x201000018000#48 = .gainEncode 0x10#8 0x00018000#32 ∧
  decodeCommand 0x211000000016#48 = .gainDecode 0x10#8 0x00000016#32 ∧
  decodeCommand 0x020000000000#48 = .init 0x00#8 0x00000000#32 ∧
  decodeCommand 0x140000000001#48 = .resize 0x00#8 0x00000001#32 ∧
  decodeCommand 0x7F00DEADBEEF#48 = .unknown 0x7F#8 0x00#8 0xDEADBEEF#32 ∧
  decodeEntry 0x1240#16 = .tw 0x12#8 0x40#8 ∧
  decodeEntry 0xFE05#16 = .td 0x05#8 ∧
  decodeEntry 0xFF00#16 = .te 0x00#8

/-- Every opcode in the gaps of the opcode map is `UNKNOWN`, and `UNKNOWN` only sets its `LOG` bit and succeeds, in every
phase (R97, R183). -/
def Obligations.UnlistedOpcodesAreLoggedNoOps : Prop :=
  ∀ (w : CommandWord) (s : State),
    ((opField w).toNat = 0 ∨ (0x05 ≤ (opField w).toNat ∧ (opField w).toNat ≤ 0x0F) ∨
      (0x18 ≤ (opField w).toNat ∧ (opField w).toNat ≤ 0x1F) ∨ 0x23 ≤ (opField w).toNat) →
    decodeCommand w = .unknown (opField w) (arg1Field w) (arg0Field w) ∧
    exec (decodeCommand w) s =
      .next { s with
        log := s.log ||| 0x01#8, status := 0#32, busy := false
        trace := s.trace ++ [.resp 0#32 s.res0 s.res1] }

/-! ## Steps -/

/-- A step runs the decoded instruction: an idle SCC accepts the command word the host presents (operand registers loaded,
`BUSY` set, the input taken) and runs its command; with a table application in progress it runs the entry `TP` points
at, in the state as it is (R21, R23, R91, R201; that a command runs to its end in one step is the model's choice, log entry
3). -/
def Obligations.StepRunsDecodedInstruction : Prop :=
  (∀ (s : State) (w : CommandWord) (rest : List HostInput),
    s.tp = none → s.busy = false → s.host = .command w :: rest →
      step s = exec (decodeCommand w)
        { s with op := opField w, arg1 := arg1Field w, arg0 := arg0Field w, busy := true, host := rest }) ∧
  (∀ (s : State) (p : TablePtr) (entries : List EntryWord) (e : EntryWord),
    s.tp = some p → tableOf s.cfg p.table = some entries → entries[p.index]? = some e →
      step s = exec (decodeEntry e) s)

/-- With no table application in progress: the SCC has no step of its own, so with nothing presented it stays as it is
(R20; that such a step answers the same state is the model's choice, log entry 4), and a state with `BUSY = 1`, which no run
reaches without a table application, takes nothing and stays as it is (the model's reading of R23, log entry 18). -/
def Obligations.StepWaitsWithoutInput : Prop :=
  ∀ s : State, s.tp = none → (s.host = [] ∨ s.busy = true) → step s = .next s

/-- Attach releases the handles held, the reset pin first, and loads every piece of state with its value of R41; the
operand registers, which R41 leaves unspecified, hold some value. A CFG that is not well formed, in the terms of R7 to R11, is
refused (R260). -/
def Obligations.AttachLoadsResetValues : Prop :=
  ∀ (s : State) (rest : List HostInput), s.tp = none → s.busy = false → s.host = .attach :: rest →
    (¬WellFormedCfg s.cfg → step s = .refused .illFormedCfg) ∧
    (WellFormedCfg s.cfg → ∃ (op arg1 : Byte) (arg0 : U32),
      step s = .next { s with
        op := op, arg1 := arg1, arg0 := arg0
        status := 0#32, res0 := 0#32, res1 := 0#32, busy := false, phase := .preDetect, activeMode := 0xFF#8
        curFps := 0#32, log := 0x00#8, rstHeld := false, pwdnHeld := false, tp := none, host := rest
        attr :=
          { minIntegrationTime := s.cfg.attrInit.minIntegrationTime
            minIntegrationTimeNative := s.cfg.attrInit.minIntegrationTimeNative
            maxIntegrationTime := s.cfg.attrInit.maxIntegrationTime
            maxIntegrationTimeNative := s.cfg.attrInit.maxIntegrationTimeNative
            integrationTimeLimit := s.cfg.attrInit.integrationTimeLimit
            maxAgain := s.cfg.maxAgainIsp
            maxDgain := s.cfg.maxDgain
            integrationTimeApplyDelay := s.cfg.attrInit.integrationTimeApplyDelay
            againApplyDelay := s.cfg.attrInit.againApplyDelay
            dgainApplyDelay := s.cfg.attrInit.dgainApplyDelay
            totalWidth := s.cfg.attrInit.totalWidth
            totalHeight := s.cfg.attrInit.totalHeight
            oneLineDuration := s.cfg.attrInit.oneLineDuration }
        trace := s.trace ++
          (if s.rstHeld then s.cfg.resetPin.toList.map Event.gpioRel else []) ++
          (if s.pwdnHeld then s.cfg.pwdnPin.toList.map Event.gpioRel else []) })

/-- Detach releases the handles held, the reset pin first, and forgets phase, mode and rate; nothing else changes and
nothing is written to the sensor (R262, which lets a model keep the instance as a `PreDetect` one: log entry 8). -/
def Obligations.DetachReleasesHandles : Prop :=
  ∀ (s : State) (rest : List HostInput), s.tp = none → s.busy = false → s.host = .detach :: rest →
    step s = .next { s with
      host := rest, rstHeld := false, pwdnHeld := false, phase := .preDetect, activeMode := 0xFF#8
      curFps := 0#32, busy := false
      trace := s.trace ++
        (if s.rstHeld then s.cfg.resetPin.toList.map Event.gpioRel else []) ++
        (if s.pwdnHeld then s.cfg.pwdnPin.toList.map Event.gpioRel else []) }

/-- The status registers right after reset, as section 1.1 of 95_test_vectors.md prints them for REFCFG (that reset takes
REFCFG is the model's choice, log entry 1). -/
def Obligations.ResetStatusRegisters : Prop :=
  ([0x00#8, 0x01#8, 0x02#8, 0x03#8, 0x04#8, 0x05#8, 0x06#8, 0x07#8].map (statusRegister State.reset) =
    [0#32, 0#32, 0#32, 0#32, 0xFF#32, 0#32, 0#32, 0#32]) ∧
  ([0x10#8, 0x11#8, 0x12#8, 0x13#8, 0x14#8, 0x15#8, 0x16#8, 0x17#8, 0x18#8, 0x19#8, 0x1A#8, 0x1B#8, 0x1C#8].map
      (statusRegister State.reset) =
    [2#32, 2#32, 811#32, 811#32, 811#32, 0x3F446#32, 0#32, 2#32, 2#32, 2#32, 2120#32, 815#32, 49#32]) ∧
  ([0x20#8, 0x21#8, 0x22#8, 0x23#8].map (statusRegister State.reset) = [0#32, 0#32, 0#32, 0#32])

/-- The status register file and the VideoDescriptor behind it: what each index reads, 0 at every index not listed, the
mode's members of the active mode and 0 with none (R37, R40; that a read is a function of the state, so that it has no side
effect and nothing is written through it, is the model's form, log entry 17). -/
def Obligations.HostReadsStatusRegisters : Prop :=
  ∀ s : State,
    (statusRegister s 0x00#8 = s.status ∧ statusRegister s 0x01#8 = s.res0 ∧ statusRegister s 0x02#8 = s.res1 ∧
      (statusRegister s 0x03#8).toNat =
        (match s.phase with
         | .preDetect => 0 | .uninitialized => 1 | .configured => 2 | .streaming => 3 | .detectFailed => 4) ∧
      (statusRegister s 0x04#8).toNat = s.activeMode.toNat ∧ statusRegister s 0x05#8 = s.curFps ∧
      (statusRegister s 0x06#8).toNat = s.log.toNat ∧
      (statusRegister s 0x07#8).toNat = 2 * s.pwdnHeld.toNat + s.rstHeld.toNat) ∧
    ([0x10#8, 0x11#8, 0x12#8, 0x13#8, 0x14#8, 0x15#8, 0x16#8, 0x17#8, 0x18#8, 0x19#8, 0x1A#8, 0x1B#8, 0x1C#8].map
        (statusRegister s) =
      [s.attr.minIntegrationTime, s.attr.minIntegrationTimeNative, s.attr.maxIntegrationTime,
       s.attr.maxIntegrationTimeNative, s.attr.integrationTimeLimit, s.attr.maxAgain, s.attr.maxDgain,
       s.attr.integrationTimeApplyDelay, s.attr.againApplyDelay, s.attr.dgainApplyDelay, s.attr.totalWidth,
       s.attr.totalHeight, s.attr.oneLineDuration]) ∧
    (s.activeMode = 0xFF#8 →
      videoDescriptor s = ⟨0xFF#8, 0#32, 0#32, 0#32, 0#32, s.curFps⟩ ∧
      [0x20#8, 0x21#8, 0x22#8, 0x23#8].map (statusRegister s) = [0#32, 0#32, 0#32, 0#32]) ∧
    (∀ d : ModeDescriptor, s.activeMode ≠ 0xFF#8 → s.cfg.modes[s.activeMode.toNat]? = some d →
      videoDescriptor s = ⟨s.activeMode, d.width, d.height, d.pixelFormatCode, d.colorSpace, s.curFps⟩ ∧
      [0x20#8, 0x21#8, 0x22#8, 0x23#8].map (statusRegister s) =
        [d.width, d.height, d.pixelFormatCode, d.colorSpace]) ∧
    (∀ i : Byte, (8 ≤ i.toNat ∧ i.toNat < 0x10) ∨ (0x1D ≤ i.toNat ∧ i.toNat < 0x20) ∨ 0x24 ≤ i.toNat →
      statusRegister s i = 0#32)

/-! ## Invariants and whole-machine rules -/

/-- The state after reset has the invariant. -/
def Obligations.ResetSatisfiesInv : Prop := Inv State.reset

/-- Every step from a state with the invariant, run or not, gives a state with the invariant (R11, R23, R25, R26, R28, R29,
R38, R185, R221; that `BUSY` and `TP` are set together between steps is the model's choice of steps, log entry 3). -/
def Obligations.StepKeepsInv : Prop :=
  ∀ s t : State, Inv s → step s = .next t → Inv t

/-- From a state with the invariant a step is never a fault and never a refusal: every error is a `STATUS`, no table runs
past its end, no entry runs outside `APPLY` (R204, R220; the stops
it rules out are the model's, log entries 9 and 11). -/
def Obligations.InvStatesGoOn : Prop :=
  ∀ s : State, Inv s → ∃ t, step s = .next t

/-- No step writes CFG (R6, R35), and the environment's answers are only consumed: the counters never go back
(that answers and counters stand in the state is the model's choice, log entry 2). -/
def Obligations.StepKeepsConfiguration : Prop :=
  ∀ s t : State, step s = .next t →
    t.cfg = s.cfg ∧ t.readAnswers = s.readAnswers ∧ t.writeAnswers = s.writeAnswers ∧ t.gpioAnswers = s.gpioAnswers ∧
    s.reads ≤ t.reads ∧ s.writes ≤ t.writes ∧ s.gpios ≤ t.gpios

/-- The event trace is append-only, and the answers drawn in a step are exactly those of the accesses it adds: reads in a
step equal `Rd` events, writes `Wr` events, pin requests `GpioReq` events (R61, R69; the counters are the
model's, log entry 2). -/
def Obligations.TraceOnlyGrows : Prop :=
  ∀ s t : State, step s = .next t →
    ∃ evs : List Event, t.trace = s.trace ++ evs ∧
      (readAddresses evs).length = t.reads - s.reads ∧ (writeAddresses evs).length = t.writes - s.writes ∧
      (evs.filter (fun e => match e with
        | .gpioReq _ _ => true
        | .rd _ _ | .wr _ _ _ | .sleep _ | .gpioSet _ _ | .gpioRel _ | .notify _ | .resp _ _ _ => false)).length =
        t.gpios - s.gpios

/-- A `LOG` flag once set stays set through every instruction, and through every step but an attach (R28). -/
def Obligations.LogFlagsAreSticky : Prop :=
  (∀ (i : Instr) (s t : State), exec i s = .next t → s.log &&& t.log = s.log) ∧
  (∀ s t : State, step s = .next t → (s.tp = none → s.host.head? ≠ some .attach) → s.log &&& t.log = s.log)

/-- `ATTR` is changed by a successful `SET_FPS` only, and by it in four fields only (R32). -/
def Obligations.AttributesWrittenOnlyBySetFps : Prop :=
  ∀ (i : Instr) (s t : State), exec i s = .next t →
    t.attr = s.attr ∨
    ((∃ a r, i = .setFps a r) ∧ t.status = 0#32 ∧
      t.attr = { s.attr with
        maxIntegrationTimeNative := t.attr.totalHeight - 4#32
        integrationTimeLimit := t.attr.totalHeight - 4#32
        totalHeight := t.attr.totalHeight
        maxIntegrationTime := t.attr.totalHeight - 4#32 })

/-- Who writes what: `RES0` and `RES1` only the four gain commands; `ACTIVE_MODE` only `INIT` and `RESIZE`, on success;
`CUR_FPS` only these and `SET_FPS`, on success; a `TE` entry stands for the end of the `INIT` or `RESIZE` in `OP`
(R22, R26, R27; log entry 12). -/
def Obligations.RegisterWriters : Prop :=
  ∀ (i : Instr) (s t : State), exec i s = .next t →
    ((t.res0 = s.res0 ∧ t.res1 = s.res1) ∨ (∃ a v, i = .gainEncode a v) ∨ (∃ a v, i = .gainDecode a v) ∨
      (∃ a v, i = .dgainEncode a v) ∨ (∃ a v, i = .setAnalogGain a v)) ∧
    (t.activeMode = s.activeMode ∨
      (t.status = 0#32 ∧
        ((∃ a k, i = .init a k ∧ t.activeMode = k.setWidth 8) ∨ (∃ a k, i = .resize a k ∧ t.activeMode = k.setWidth 8) ∨
          (∃ v, i = .te v ∧ (s.op = 0x02#8 ∨ s.op = 0x14#8) ∧ t.activeMode = s.arg0.setWidth 8)))) ∧
    (t.curFps = s.curFps ∨
      (t.status = 0#32 ∧
        ((∃ a k, i = .init a k) ∨ (∃ a k, i = .resize a k) ∨ (∃ a r, i = .setFps a r ∧ t.curFps = r) ∨
          (∃ v, i = .te v ∧ (s.op = 0x02#8 ∨ s.op = 0x14#8)))))

/-- Every command that answers ends: `STATUS` is one of the codes of R221 other than -4, `BUSY` is clear, no table
application is left, and the last event is the `Resp` of the three result registers (R17, R92, R221, R231). -/
def Obligations.CommandsEndWithResponse : Prop :=
  ∀ (i : Instr) (s t : State), isCommand i = true → s.tp = none → exec i s = .next t →
    t.status ∈ statusValues ∧ t.busy = false ∧ t.tp = none ∧
    ∃ evs : List Event, t.trace = s.trace ++ evs ++ [.resp t.status t.res0 t.res1] ∧
      ∀ e ∈ evs, isResponse e = false

/-- The transition table of `PHASE`, cell by cell, for every command: the phase after a success, and after an error the
phase as it was, but for a `DETECT` in `PreDetect`, which fails into `DetectFailed` (R171). -/
def Obligations.PhaseFollowsTransitionTable : Prop :=
  ∀ (i : Instr) (s t : State), isCommand i = true → exec i s = .next t →
    match (phaseColumn i).cell s.phase with
    | none => t.status = 0xFFFFFFFE#32 ∧ t.phase = s.phase ∧ t.trace = s.trace ++ [.resp 0xFFFFFFFE#32 s.res0 s.res1]
    | some p =>
      (t.status = 0#32 → t.phase = p) ∧
      (t.status ≠ 0#32 →
        ((∃ a v, i = .detect a v) ∧ s.phase = .preDetect → t.phase = .detectFailed) ∧
        (¬((∃ a v, i = .detect a v) ∧ s.phase = .preDetect) → t.phase = s.phase))

/-- In `PreDetect` and `DetectFailed` every device command ends with `NotDetected`, issues no port event and changes no
state but `STATUS` (and `BUSY`, which its end clears); the commands that touch no device are not gated: they succeed in
every phase (R170). -/
def Obligations.PhaseGateRefusesDeviceCommands : Prop :=
  (∀ (i : Instr) (s : State), isDeviceCommand i = true → (s.phase = .preDetect ∨ s.phase = .detectFailed) →
    exec i s = .next { s with
      status := 0xFFFFFFFE#32, busy := false
      trace := s.trace ++ [.resp 0xFFFFFFFE#32 s.res0 s.res1] }) ∧
  (∀ (i : Instr) (s : State), isCommand i = true → isDeviceCommand i = false → (∀ a v, i ≠ .detect a v) →
    ∃ t, exec i s = .next t ∧ t.status = 0#32)

/-- Every bus access a command makes is the next one of its row of R209: the loads by their addresses, the stores by their
addresses and bytes, in the row's one order and without gaps; a device command that succeeds makes the whole row; and only
`DETECT` drives the GPIO port (R184, R209). -/
def Obligations.BusAccessesFollowTable : Prop :=
  ∀ (i : Instr) (s t : State), isCommand i = true → exec i s = .next t →
    ∃ evs : List Event, t.trace = s.trace ++ evs ++ [.resp t.status t.res0 t.res1] ∧
      busAccesses evs <+: accessesOf s i ∧
      (isDeviceCommand i = true → t.status = 0#32 → busAccesses evs = accessesOf s i) ∧
      ((∀ a v, i ≠ .detect a v) → ∀ e ∈ evs, isGpioEvent e = false)

/-- The number of port events of a command, its `Resp` apart, is bounded (R272). -/
def Obligations.CommandEventsAreBounded : Prop :=
  ∀ (i : Instr) (s t : State), isCommand i = true → exec i s = .next t →
    t.trace.length ≤ s.trace.length + eventBound s i + 1

/-! ## DETECT -/

/-- `DETECT` in `PreDetect` with both identity bytes as expected: both pin stages, whatever their requests were answered,
then the high byte, the low byte, `Uninitialized` (R172 to R175, R225). -/
def Obligations.DetectSucceeds : Prop :=
  ∀ (a : Byte) (v : U32) (s : State), s.phase = .preDetect →
    readReply s 0 s.cfg.idHAddr = .ok s.cfg.idHVal → readReply s 1 s.cfg.idLAddr = .ok s.cfg.idLVal →
    exec (.detect a v) s = .next { afterPins s with
      reads := s.reads + 2, phase := .uninitialized, status := 0#32, busy := false
      trace := (afterPins s).trace ++
        [.rd s.cfg.idHAddr (.ok s.cfg.idHVal), .rd s.cfg.idLAddr (.ok s.cfg.idLVal), .resp 0#32 s.res0 s.res1] }

/-- The four ways `DETECT` fails in `PreDetect`, each terminal: a bus error or a wrong byte, the high byte first, and
after a failure on it the low byte is not read (R172, R175, R222, R223). -/
def Obligations.DetectFailsOnIdentity : Prop :=
  ∀ (a : Byte) (v : U32) (s : State), s.phase = .preDetect →
    (readReply s 0 s.cfg.idHAddr = .err →
      exec (.detect a v) s = .next { afterPins s with
        reads := s.reads + 1, phase := .detectFailed, status := 0xFFFFFFFF#32, busy := false
        trace := (afterPins s).trace ++ [.rd s.cfg.idHAddr .err, .resp 0xFFFFFFFF#32 s.res0 s.res1] }) ∧
    (∀ h : Byte, readReply s 0 s.cfg.idHAddr = .ok h → h ≠ s.cfg.idHVal →
      exec (.detect a v) s = .next { afterPins s with
        reads := s.reads + 1, phase := .detectFailed, status := 0xFFFFFFFE#32, busy := false
        trace := (afterPins s).trace ++ [.rd s.cfg.idHAddr (.ok h), .resp 0xFFFFFFFE#32 s.res0 s.res1] }) ∧
    (readReply s 0 s.cfg.idHAddr = .ok s.cfg.idHVal → readReply s 1 s.cfg.idLAddr = .err →
      exec (.detect a v) s = .next { afterPins s with
        reads := s.reads + 2, phase := .detectFailed, status := 0xFFFFFFFF#32, busy := false
        trace := (afterPins s).trace ++
          [.rd s.cfg.idHAddr (.ok s.cfg.idHVal), .rd s.cfg.idLAddr .err, .resp 0xFFFFFFFF#32 s.res0 s.res1] }) ∧
    (∀ l : Byte, readReply s 0 s.cfg.idHAddr = .ok s.cfg.idHVal → readReply s 1 s.cfg.idLAddr = .ok l →
      l ≠ s.cfg.idLVal →
      exec (.detect a v) s = .next { afterPins s with
        reads := s.reads + 2, phase := .detectFailed, status := 0xFFFFFFFE#32, busy := false
        trace := (afterPins s).trace ++
          [.rd s.cfg.idHAddr (.ok s.cfg.idHVal), .rd s.cfg.idLAddr (.ok l), .resp 0xFFFFFFFE#32 s.res0 s.res1] })

/-- `DETECT` acts once per attach: after a success it succeeds with no activity, after a failure it answers `NotDetected`
with no activity (R172, R223). -/
def Obligations.DetectActsOncePerAttach : Prop :=
  ∀ (a : Byte) (v : U32) (s : State),
    (s.phase = .uninitialized ∨ s.phase = .configured ∨ s.phase = .streaming →
      exec (.detect a v) s = .next { s with
        status := 0#32, busy := false, trace := s.trace ++ [.resp 0#32 s.res0 s.res1] }) ∧
    (s.phase = .detectFailed →
      exec (.detect a v) s = .next { s with
        status := 0xFFFFFFFE#32, busy := false, trace := s.trace ++ [.resp 0xFFFFFFFE#32 s.res0 s.res1] })

/-- "A detection sequence receiving mismatched identity bytes never writes the full initialization table": after such a
`DETECT`, an `INIT` writes nothing at all (R175, R185 (3)). -/
def Obligations.FailedDetectBlocksInit : Prop :=
  ∀ (a b : Byte) (v k : U32) (s t : State), s.phase = .preDetect →
    readReply s 0 s.cfg.idHAddr ≠ .ok s.cfg.idHVal ∨ readReply s 1 s.cfg.idLAddr ≠ .ok s.cfg.idLVal →
    exec (.detect a v) s = .next t →
    t.writes = s.writes ∧
    exec (.init b k) t = .next { t with
      status := 0xFFFFFFFE#32, busy := false, trace := t.trace ++ [.resp 0xFFFFFFFE#32 t.res0 t.res1] }

/-! ## Modes and streaming -/

/-- `INIT(k)` in a detected phase, the bus accepting every write: the table of mode `k` in full, whatever the active mode;
mode and rate recorded, `Configured`, the host notified last (R176, R207, R229). -/
def Obligations.InitAppliesModeTable : Prop :=
  ∀ (a : Byte) (k : U32) (s : State) (d : ModeDescriptor), detected s = true → s.cfg.modes.length ≤ 255 →
    s.cfg.modes[k.toNat]? = some d → tableHasEnd d.table = true → writesAccepted s (tableWrites d.table) →
    exec (.init a k) s = .next { s with
      activeMode := k.setWidth 8, curFps := d.frameRate, phase := .configured, tp := none
      writes := s.writes + (tableWrites d.table).length, status := 0#32, busy := false
      trace := s.trace ++ tableEvents d.table ++
        [.notify ⟨k.setWidth 8, d.width, d.height, d.pixelFormatCode, d.colorSpace, d.frameRate⟩,
         .resp 0#32 s.res0 s.res1] }

/-- `RESIZE(k)` in a detected phase: to another mode it applies that mode's table; to the active mode it issues no bus
access; either way mode and rate are recorded and the host notified; the phase moves from `Uninitialized` to
`Configured` only (R36, R177). -/
def Obligations.ResizeAppliesTableUnlessActive : Prop :=
  ∀ (a : Byte) (k : U32) (s : State) (d : ModeDescriptor), detected s = true → s.cfg.modes.length ≤ 255 →
    s.cfg.modes[k.toNat]? = some d →
    (s.activeMode.toNat ≠ k.toNat → tableHasEnd d.table = true → writesAccepted s (tableWrites d.table) →
      exec (.resize a k) s = .next { s with
        activeMode := k.setWidth 8, curFps := d.frameRate
        phase := if s.phase = .uninitialized then .configured else s.phase
        tp := none, writes := s.writes + (tableWrites d.table).length, status := 0#32, busy := false
        trace := s.trace ++ tableEvents d.table ++
          [.notify ⟨k.setWidth 8, d.width, d.height, d.pixelFormatCode, d.colorSpace, d.frameRate⟩,
           .resp 0#32 s.res0 s.res1] }) ∧
    (s.activeMode.toNat = k.toNat →
      exec (.resize a k) s = .next { s with
        curFps := d.frameRate, phase := if s.phase = .uninitialized then .configured else s.phase
        status := 0#32, busy := false
        trace := s.trace ++
          [.notify ⟨s.activeMode, d.width, d.height, d.pixelFormatCode, d.colorSpace, d.frameRate⟩,
           .resp 0#32 s.res0 s.res1] })

/-- A mode id that names no descriptor: `OutOfRange`, no port event, nothing but `STATUS` (and `BUSY`) changed (R176, R177,
R224). -/
def Obligations.UnknownModeIsOutOfRange : Prop :=
  ∀ (a : Byte) (k : U32) (s : State) (i : Instr), i = .init a k ∨ i = .resize a k → detected s = true →
    s.cfg.modes.length ≤ k.toNat →
    exec i s = .next { s with
      status := 0xFFFFFFFD#32, busy := false, trace := s.trace ++ [.resp 0xFFFFFFFD#32 s.res0 s.res1] }

/-- `STREAM_ON` and `FINISH_CHANGE` in every detected phase, the bus accepting every write: exactly the stream-on table;
`Configured` becomes `Streaming` (R178, R181, R207). -/
def Obligations.StreamOnCommandsWriteTable : Prop :=
  ∀ (a : Byte) (v : U32) (s : State) (i : Instr), i = .streamOn a v ∨ i = .finishChange a v → detected s = true →
    tableHasEnd s.cfg.streamOnTable = true → writesAccepted s (tableWrites s.cfg.streamOnTable) →
    exec i s = .next { s with
      phase := if s.phase = .configured then .streaming else s.phase
      tp := none, writes := s.writes + (tableWrites s.cfg.streamOnTable).length, status := 0#32, busy := false
      trace := s.trace ++ tableEvents s.cfg.streamOnTable ++ [.resp 0#32 s.res0 s.res1] }

/-- `STREAM_OFF` and `PREPARE_CHANGE` in every detected phase, the bus accepting every write: exactly the stream-off table;
`Streaming` becomes `Configured` (R179, R180, R207). -/
def Obligations.StreamOffCommandsWriteTable : Prop :=
  ∀ (a : Byte) (v : U32) (s : State) (i : Instr), i = .streamOff a v ∨ i = .prepareChange a v → detected s = true →
    tableHasEnd s.cfg.streamOffTable = true → writesAccepted s (tableWrites s.cfg.streamOffTable) →
    exec i s = .next { s with
      phase := if s.phase = .streaming then .configured else s.phase
      tp := none, writes := s.writes + (tableWrites s.cfg.streamOffTable).length, status := 0#32, busy := false
      trace := s.trace ++ tableEvents s.cfg.streamOffTable ++ [.resp 0#32 s.res0 s.res1] }

/-- The first table write the bus refuses ends the command with `BusFailure`: the entries before it were done, it is not
repeated, no later entry runs, nothing is rolled back and no state but `STATUS` (and `BUSY`, `TP`) changes (R206, R222,
R231, R233). -/
def Obligations.FailedTableWriteAborts : Prop :=
  ∀ (i : Instr) (s : State) (T : TableId) (before after : List EntryWord) (a v : Byte), detected s = true →
    tableOfCommand i s = some T → tableOf s.cfg T = some (before ++ packEntry a v :: after) →
    tableHasEnd before = false → a ≠ 0xFF#8 → a ≠ 0xFE#8 →
    writesAccepted s (tableWrites before) → writeReply s (tableWrites before).length a v = .err →
    exec i s = .next { s with
      tp := none, writes := s.writes + (tableWrites before).length + 1, status := 0xFFFFFFFF#32, busy := false
      trace := s.trace ++ tableEvents before ++ [.wr a v .err, .resp 0xFFFFFFFF#32 s.res0 s.res1] }

/-- "Applying the same `ModeDescriptor` twice in succession issues the register table write exactly once": a successful
`INIT(k)`, or `RESIZE(k)` from another mode, writes the table of mode `k` once and notifies (a `RESIZE(k)` of the active mode
only notifies), and a `RESIZE(k)` right after it succeeds with the notification as its only port event (R185 (1)). -/
def Obligations.SameModeTwiceWritesTableOnce : Prop :=
  ∀ (a b : Byte) (k : U32) (i : Instr) (s t : State), i = .init a k ∨ i = .resize a k →
    s.cfg.modes.length ≤ 255 → exec i s = .next t → t.status = 0#32 →
    (∃ d : ModeDescriptor, s.cfg.modes[k.toNat]? = some d ∧
      t.trace = s.trace ++
        (if i = .resize a k ∧ s.activeMode.toNat = k.toNat then [] else tableEvents d.table) ++
        [.notify (videoDescriptor t), .resp 0#32 t.res0 t.res1]) ∧
    exec (.resize b k) t = .next { t with
      trace := t.trace ++ [.notify (videoDescriptor t), .resp 0#32 t.res0 t.res1] }

/-- "Stream-on followed immediately by stream-off writes exactly the stream-on table then exactly the stream-off table", in
every detected phase, when the bus accepts every write (R185 (2)). -/
def Obligations.StreamOnThenOffWritesBothTables : Prop :=
  ∀ (a b : Byte) (v w : U32) (s : State), detected s = true →
    tableHasEnd s.cfg.streamOnTable = true → tableHasEnd s.cfg.streamOffTable = true →
    writesAccepted s (tableWrites s.cfg.streamOnTable ++ tableWrites s.cfg.streamOffTable) →
    ∃ t u : State, exec (.streamOn a v) s = .next t ∧ exec (.streamOff b w) t = .next u ∧
      u.trace = s.trace ++ tableEvents s.cfg.streamOnTable ++ [.resp 0#32 s.res0 s.res1] ++
        tableEvents s.cfg.streamOffTable ++ [.resp 0#32 s.res0 s.res1] ∧
      u.phase = if s.phase = .uninitialized then .uninitialized else .configured

/-! ## Table entries -/

/-- A `TW` entry of a table in progress: the write, then the next entry; if the bus refuses it the table is left and the
calling command ends with `BusFailure`. A `TD` entry: the sleep, then the next entry (R201, R202, R205, R206). -/
def Obligations.TableEntriesWriteAndDelay : Prop :=
  ∀ (a v : Byte) (s : State) (p : TablePtr), s.tp = some p →
    (writeReply s 0 a v = .ok →
      exec (.tw a v) s = .next { s with
        tp := some { p with index := p.index + 1 }, writes := s.writes + 1, trace := s.trace ++ [.wr a v .ok] }) ∧
    (writeReply s 0 a v = .err →
      exec (.tw a v) s = .next { s with
        tp := none, writes := s.writes + 1, status := 0xFFFFFFFF#32, busy := false
        trace := s.trace ++ [.wr a v .err, .resp 0xFFFFFFFF#32 s.res0 s.res1] }) ∧
    exec (.td v) s = .next { s with
      tp := some { p with index := p.index + 1 }, trace := s.trace ++ [.sleep v.toNat] }

/-- A `TE` entry ends the table with no port event of its own and the command in `OP` runs on to its end, whatever the
value byte (R204, R208; that the caller is read from `OP` is the model's, log entry 12). -/
def Obligations.TableEndResumesCommand : Prop :=
  ∀ (v : Byte) (s : State) (p : TablePtr), s.tp = some p →
    (s.op = 0x03#8 ∨ s.op = 0x16#8 →
      exec (.te v) s = .next { s with
        tp := none, phase := if s.phase = .configured then .streaming else s.phase, status := 0#32, busy := false
        trace := s.trace ++ [.resp 0#32 s.res0 s.res1] }) ∧
    (s.op = 0x04#8 ∨ s.op = 0x15#8 →
      exec (.te v) s = .next { s with
        tp := none, phase := if s.phase = .streaming then .configured else s.phase, status := 0#32, busy := false
        trace := s.trace ++ [.resp 0#32 s.res0 s.res1] }) ∧
    (∀ d : ModeDescriptor, s.op = 0x02#8 ∨ s.op = 0x14#8 → s.cfg.modes.length ≤ 255 →
      s.cfg.modes[s.arg0.toNat]? = some d →
      exec (.te v) s = .next { s with
        tp := none, activeMode := s.arg0.setWidth 8, curFps := d.frameRate
        phase := if s.op = 0x02#8 ∨ s.phase = .uninitialized then .configured else s.phase
        status := 0#32, busy := false
        trace := s.trace ++
          [.notify ⟨s.arg0.setWidth 8, d.width, d.height, d.pixelFormatCode, d.colorSpace, d.frameRate⟩,
           .resp 0#32 s.res0 s.res1] })

/-- The command that runs its table within one step agrees with the entry-by-entry walker: from the command's state with
`TP` at entry 0, some number of single-entry steps ends in exactly the state the command's meaning answers (R201; both kinds
of step are the model's choice, log entries 3 and 12). -/
def Obligations.EntryStepsAgreeWithCommand : Prop :=
  ∀ (w : CommandWord) (s t : State) (T : TableId) (entries : List EntryWord), detected s = true →
    tableOfCommand (decodeCommand w) s = some T → tableOf s.cfg T = some entries →
    exec (decodeCommand w) (accept w s) = .next t →
    ∃ n : Nat, stepsTo n (startTable T (accept w s)) t

/-! ## No-ops -/

/-- `SET_DIGITAL_GAIN` (opcode 0x12) and `GET_BLACK_LEVEL` (opcode 0x13) succeed in every phase and change nothing but `STATUS` (and `BUSY`): no log
flag, no result register, no port event but `Resp` (R136, R182). -/
def Obligations.NoOpCommandsOnlySucceed : Prop :=
  ∀ (a : Byte) (v : U32) (s : State),
    decodeCommand (0x12#8 ++ a ++ v) = .setDigitalGain a v ∧ decodeCommand (0x13#8 ++ a ++ v) = .getBlackLevel a v ∧
    exec (.setDigitalGain a v) s = .next { s with
      status := 0#32, busy := false, trace := s.trace ++ [.resp 0#32 s.res0 s.res1] } ∧
    exec (.getBlackLevel a v) s = .next { s with
      status := 0#32, busy := false, trace := s.trace ++ [.resp 0#32 s.res0 s.res1] }

/-! ## Gain Codec -/

/-- `GAIN_ENCODE` (opcode 0x20) loads the achieved gain and the code of `ENC` and nothing else, in every phase (R132). -/
def Obligations.GainEncodeLoadsResults : Prop :=
  ∀ (sh : Byte) (g : U32) (s : State) (code : Byte) (achieved : U32),
    encodeGain s.cfg s.attr.maxAgain g sh.toNat = (code, achieved) →
    decodeCommand (0x20#8 ++ sh ++ g) = .gainEncode sh g ∧
    exec (.gainEncode sh g) s = .next { s with
      res0 := achieved, res1 := code.setWidth 32, status := 0#32, busy := false
      trace := s.trace ++ [.resp 0#32 achieved (code.setWidth 32)] }

/-- `ENC` under the default numerics as R129 gives it: exponent and thresholds counted from the clamped gain, the achieved
gain the re-logged code, no wrap in either (R126, R129, R131). -/
def Obligations.DefaultEncodeFormula : Prop :=
  ∀ (c : Cfg) (maxAgain g : U32) (shift : Nat), c.numerics = .exactFloor →
    let s1 := min shift 28
    let g1 := min g.toNat maxAgain.toNat
    let n := g1 / 2 ^ s1
    let m := if 4 ≤ n then 15 else
      ((List.range 16).filter (fun j => decide (1 ≤ j ∧ log2Tab.getD j 0 / 2 ^ (32 - s1) < g1 % 2 ^ s1))).length
    let e := if 4 ≤ n then 3 else n
    (encodeGain c maxAgain g shift).1.toNat = 16 * e + m ∧
    (encodeGain c maxAgain g shift).2.toNat = e * 2 ^ s1 + log2Tab.getD m 0 / 2 ^ (32 - s1)

/-- `GAIN_DECODE` (opcode 0x21) of the code in `ARG0[7:0]`, in every phase: `RES1` is the linear magnitude, and `RES0` under the default
numerics is `(e << s) + (LOG2TAB[m] >> (32 - s))`, with no wrap in either (R121, R126, R130, R131, R133). -/
def Obligations.GainDecodeLoadsResults : Prop :=
  ∀ (sh : Byte) (v : U32) (s : State), 4 ≤ s.cfg.gfp → s.cfg.gfp ≤ 16 →
    decodeCommand (0x21#8 ++ sh ++ v) = .gainDecode sh v ∧
    ∃ (r0 r1 : U32),
      exec (.gainDecode sh v) s = .next { s with
        res0 := r0, res1 := r1, status := 0#32, busy := false, trace := s.trace ++ [.resp 0#32 r0 r1] } ∧
      r1.toNat = 2 ^ (s.cfg.gfp - 4) * 2 ^ (v.toNat / 16 % 16) * (16 + v.toNat % 16) ∧
      (s.cfg.numerics = .exactFloor →
        r0.toNat = v.toNat / 16 % 16 * 2 ^ (min sh.toNat 28) +
          log2Tab.getD (v.toNat % 16) 0 / 2 ^ (32 - min sh.toNat 28)) ∧
      (∀ id, s.cfg.numerics = .custom id →
        r0.toNat = log2 (.custom id) s.cfg.gfp r1.toNat (min sh.toNat 28))

/-- `DGAIN_ENCODE` (opcode 0x22) is the identity, in every phase and with no clamp (R134). -/
def Obligations.DgainEncodeIsIdentity : Prop :=
  ∀ (sh : Byte) (g : U32) (s : State),
    decodeCommand (0x22#8 ++ sh ++ g) = .dgainEncode sh g ∧
    exec (.dgainEncode sh g) s = .next { s with
      res0 := g, res1 := 0#32, status := 0#32, busy := false, trace := s.trace ++ [.resp 0#32 g 0#32] }

/-- `SET_ANALOG_GAIN` (opcode 0x11): in a detected phase the code of `ENC` at `ISP_SHIFT` is written to `AGAIN_ADDR`, both
results are loaded whatever the bus answers, and a refused write is `BusFailure`; in the others it is `NotDetected` with no
port event and both results unchanged (R135). -/
def Obligations.SetAnalogGainWritesCode : Prop :=
  ∀ (a : Byte) (g : U32) (s : State) (code : Byte) (achieved : U32),
    encodeGain s.cfg s.attr.maxAgain g s.cfg.ispShift = (code, achieved) →
    decodeCommand (0x11#8 ++ a ++ g) = .setAnalogGain a g ∧
    (s.phase = .preDetect ∨ s.phase = .detectFailed →
      exec (.setAnalogGain a g) s = .next { s with
        status := 0xFFFFFFFE#32, busy := false, trace := s.trace ++ [.resp 0xFFFFFFFE#32 s.res0 s.res1] }) ∧
    (detected s = true → writeReply s 0 s.cfg.againAddr code = .ok →
      exec (.setAnalogGain a g) s = .next { s with
        res0 := achieved, res1 := code.setWidth 32, writes := s.writes + 1, status := 0#32, busy := false
        trace := s.trace ++ [.wr s.cfg.againAddr code .ok, .resp 0#32 achieved (code.setWidth 32)] }) ∧
    (detected s = true → writeReply s 0 s.cfg.againAddr code = .err →
      exec (.setAnalogGain a g) s = .next { s with
        res0 := achieved, res1 := code.setWidth 32, writes := s.writes + 1, status := 0xFFFFFFFF#32, busy := false
        trace := s.trace ++ [.wr s.cfg.againAddr code .err, .resp 0xFFFFFFFF#32 achieved (code.setWidth 32)] })

/-- Every configured numerics, the exact-floor pair and every other instance, meets the contract (a) to (e) of R122. -/
def Obligations.NumericsMeetContract : Prop :=
  ∀ (nm : Numerics) (gfp s : Nat), s ≤ 28 →
    (∀ n, exp2 nm gfp (n * 2 ^ s) s = 2 ^ (gfp + n)) ∧
    (∀ g g', g ≤ g' → exp2 nm gfp g s ≤ exp2 nm gfp g' s) ∧
    (∀ g, 2 ^ (gfp + g / 2 ^ s) ≤ exp2 nm gfp g s ∧ exp2 nm gfp g s < 2 ^ (gfp + g / 2 ^ s + 1)) ∧
    (∀ k, k ≤ 15 → log2 nm gfp (2 ^ (gfp + k)) s = k * 2 ^ s) ∧
    (∀ l l', l ≤ l' → log2 nm gfp l s ≤ log2 nm gfp l' s) ∧
    (∀ l, l ≤ 2 ^ gfp → log2 nm gfp l s = 0)

/-- The closed form of `RELOG` is the floor of the logarithm of the code's linear magnitude, and fits a u32 (R124, R126
(1)). -/
def Obligations.RelogIsFlooredLogarithm : Prop :=
  ∀ (gfp s : Nat) (code : Byte), 4 ≤ gfp → s ≤ 28 →
    log2Floor gfp (dlin gfp code) s = relog code s ∧ relog code s < 2 ^ 32

/-- The closed form of the mantissa: below exponent 4 the top five bits of the floored power are 16 plus the number of
thresholds passed (R123, R126 (2)). -/
def Obligations.MantissaCountsThresholds : Prop :=
  ∀ gfp g s : Nat, 4 ≤ gfp → s ≤ 28 → g / 2 ^ s ≤ 3 →
    exp2Floor gfp g s / 2 ^ (gfp + g / 2 ^ s - 4) = 16 + mant (g % 2 ^ s) s

/-- The closed form of encode equals the source's algorithm (clamp, power, window, scan, mantissa, decode and re-log) under
the exact-floor numerics (R127, R128, R129). -/
def Obligations.ClosedFormEncodesLikeAlgorithm : Prop :=
  ∀ gfp maxAgain g s : Nat, 4 ≤ gfp → s ≤ 28 →
    encBy .exactFloor gfp maxAgain g s = encClosed maxAgain g s

/-- For every gain, shift and numerics the code has exponent 0 to 3 and mantissa 0 to 15 (R137 (1)). -/
def Obligations.EncodedExponentAtMostThree : Prop :=
  ∀ (c : Cfg) (maxAgain g : U32) (shift : Nat),
    codeExponent (encodeGain c maxAgain g shift).1 ≤ 3 ∧ codeMantissa (encodeGain c maxAgain g shift).1 ≤ 15

/-- Decode then encode loses nothing of a code with mantissa 0 and one mantissa step of any other, under the default
numerics, exponents 0 to 3, from 5 fractional bits on, where the clamp does not act (R137 (2)). -/
def Obligations.DecodeThenEncodeLosesOneStep : Prop :=
  ∀ (c : Cfg) (maxAgain : U32) (code : Byte) (shift : Nat), c.numerics = .exactFloor → 5 ≤ shift →
    codeExponent code ≤ 3 → (decodeGain c code shift).1.toNat ≤ maxAgain.toNat →
    (encodeGain c maxAgain (decodeGain c code shift).1 shift).1 =
      if codeMantissa code = 0 then code else code - 1#8

/-- The achieved gain is never above the request nor above `ATTR.MAX_AGAIN`, under the default numerics (R137 (3)). -/
def Obligations.AchievedNeverAboveRequest : Prop :=
  ∀ (c : Cfg) (maxAgain g : U32) (shift : Nat), c.numerics = .exactFloor →
    (encodeGain c maxAgain g shift).2.toNat ≤ min g.toNat maxAgain.toNat

/-- A larger request never gets a smaller code, under the default numerics (R137 (4)). -/
def Obligations.EncodeIsMonotone : Prop :=
  ∀ (c : Cfg) (maxAgain g g' : U32) (shift : Nat), c.numerics = .exactFloor → g.toNat ≤ g'.toNat →
    (encodeGain c maxAgain g shift).1.toNat ≤ (encodeGain c maxAgain g' shift).1.toNat

/-! ## Timing Engine -/

/-- `SET_FPS` in a detected phase with an accepted rate, a horizontal total that is not 0 and six accepted accesses: the six
accesses in order, the four attribute fields, the rate, the notification last (R151 to R160). -/
def Obligations.SetFpsCommitsTiming : Prop :=
  ∀ (a : Byte) (r : U32) (s : State) (lo hi c : Byte), detected s = true →
    let num := r.toNat / 65536
    let den := r.toNat % 65536
    let hts := 2 * (256 * hi.toNat + lo.toNat)
    let vt := s.cfg.pclk * den / hts / num
    den ≠ 0 → 256 * s.cfg.minFps ≤ 256 * num / den → 256 * num / den ≤ 256 * s.cfg.maxFps → hts ≠ 0 →
    readReply s 0 s.cfg.htsLAddr = .ok lo → readReply s 1 s.cfg.htsHAddr = .ok hi →
    readReply s 2 s.cfg.grpCtrlAddr = .ok c →
    writeReply s 0 s.cfg.grpCtrlAddr (c ||| 0x80#8) = .ok →
    writeReply s 1 s.cfg.vtsLAddr (BitVec.ofNat 8 vt) = .ok →
    writeReply s 2 s.cfg.vtsHAddr (BitVec.ofNat 8 (vt / 256)) = .ok →
    exec (.setFps a r) s = .next { s with
      reads := s.reads + 3, writes := s.writes + 3, curFps := r, status := 0#32, busy := false
      attr := { s.attr with
        maxIntegrationTimeNative := BitVec.ofNat 32 vt - 4#32
        integrationTimeLimit := BitVec.ofNat 32 vt - 4#32
        totalHeight := BitVec.ofNat 32 vt
        maxIntegrationTime := BitVec.ofNat 32 vt - 4#32 }
      trace := s.trace ++
        [.rd s.cfg.htsLAddr (.ok lo), .rd s.cfg.htsHAddr (.ok hi), .rd s.cfg.grpCtrlAddr (.ok c),
         .wr s.cfg.grpCtrlAddr (c ||| 0x80#8) .ok, .wr s.cfg.vtsLAddr (BitVec.ofNat 8 vt) .ok,
         .wr s.cfg.vtsHAddr (BitVec.ofNat 8 (vt / 256)) .ok,
         .notify { videoDescriptor s with fps := r }, .resp 0#32 s.res0 s.res1] }

/-- `SET_FPS` in a detected phase with denominator 0 or a rate outside `[MIN_FPS, MAX_FPS]`: `OutOfRange`, no port event,
nothing but `STATUS` (and `BUSY`) changed. With any other rate, both ends of the interval among them, it goes on to its first
bus access (R151, R152, R153, R224). -/
def Obligations.SetFpsRejectsRate : Prop :=
  ∀ (a : Byte) (r : U32) (s : State), detected s = true →
    let num := r.toNat / 65536
    let den := r.toNat % 65536
    ((den = 0 ∨ 256 * num / den < 256 * s.cfg.minFps ∨ 256 * s.cfg.maxFps < 256 * num / den) →
      exec (.setFps a r) s = .next { s with
        status := 0xFFFFFFFD#32, busy := false, trace := s.trace ++ [.resp 0xFFFFFFFD#32 s.res0 s.res1] }) ∧
    (den ≠ 0 → 256 * s.cfg.minFps ≤ 256 * num / den → 256 * num / den ≤ 256 * s.cfg.maxFps →
      ∃ (t : State) (evs : List Event), exec (.setFps a r) s = .next t ∧
        t.trace = s.trace ++ .rd s.cfg.htsLAddr (readReply s 0 s.cfg.htsLAddr) :: evs)

/-- `SET_FPS` with an accepted rate ends with `BusFailure` at the first of its six accesses that fails: the accesses before
it were done, no later one is issued, no attribute and no rate is written, the host is not notified (R157, R161). -/
def Obligations.SetFpsStopsAtFirstFailure : Prop :=
  ∀ (a : Byte) (r : U32) (s : State), detected s = true → rateAccepted s.cfg r = true →
    (readReply s 0 s.cfg.htsLAddr = .err →
      exec (.setFps a r) s = .next { s with
        reads := s.reads + 1, status := 0xFFFFFFFF#32, busy := false
        trace := s.trace ++ [.rd s.cfg.htsLAddr .err, .resp 0xFFFFFFFF#32 s.res0 s.res1] }) ∧
    (∀ lo, readReply s 0 s.cfg.htsLAddr = .ok lo → readReply s 1 s.cfg.htsHAddr = .err →
      exec (.setFps a r) s = .next { s with
        reads := s.reads + 2, status := 0xFFFFFFFF#32, busy := false
        trace := s.trace ++
          [.rd s.cfg.htsLAddr (.ok lo), .rd s.cfg.htsHAddr .err, .resp 0xFFFFFFFF#32 s.res0 s.res1] }) ∧
    (∀ lo hi, readReply s 0 s.cfg.htsLAddr = .ok lo → readReply s 1 s.cfg.htsHAddr = .ok hi →
      ¬(lo = 0#8 ∧ hi = 0#8) →
      let vt := verticalTotal s.cfg r (2 * (256 * hi.toNat + lo.toNat))
      (readReply s 2 s.cfg.grpCtrlAddr = .err →
        exec (.setFps a r) s = .next { s with
          reads := s.reads + 3, status := 0xFFFFFFFF#32, busy := false
          trace := s.trace ++
            [.rd s.cfg.htsLAddr (.ok lo), .rd s.cfg.htsHAddr (.ok hi), .rd s.cfg.grpCtrlAddr .err,
             .resp 0xFFFFFFFF#32 s.res0 s.res1] }) ∧
      (∀ c, readReply s 2 s.cfg.grpCtrlAddr = .ok c →
        (writeReply s 0 s.cfg.grpCtrlAddr (c ||| 0x80#8) = .err →
          exec (.setFps a r) s = .next { s with
            reads := s.reads + 3, writes := s.writes + 1, status := 0xFFFFFFFF#32, busy := false
            trace := s.trace ++
              [.rd s.cfg.htsLAddr (.ok lo), .rd s.cfg.htsHAddr (.ok hi), .rd s.cfg.grpCtrlAddr (.ok c),
               .wr s.cfg.grpCtrlAddr (c ||| 0x80#8) .err, .resp 0xFFFFFFFF#32 s.res0 s.res1] }) ∧
        (writeReply s 0 s.cfg.grpCtrlAddr (c ||| 0x80#8) = .ok →
          writeReply s 1 s.cfg.vtsLAddr (BitVec.ofNat 8 vt) = .err →
          exec (.setFps a r) s = .next { s with
            reads := s.reads + 3, writes := s.writes + 2, status := 0xFFFFFFFF#32, busy := false
            trace := s.trace ++
              [.rd s.cfg.htsLAddr (.ok lo), .rd s.cfg.htsHAddr (.ok hi), .rd s.cfg.grpCtrlAddr (.ok c),
               .wr s.cfg.grpCtrlAddr (c ||| 0x80#8) .ok, .wr s.cfg.vtsLAddr (BitVec.ofNat 8 vt) .err,
               .resp 0xFFFFFFFF#32 s.res0 s.res1] }) ∧
        (writeReply s 0 s.cfg.grpCtrlAddr (c ||| 0x80#8) = .ok →
          writeReply s 1 s.cfg.vtsLAddr (BitVec.ofNat 8 vt) = .ok →
          writeReply s 2 s.cfg.vtsHAddr (BitVec.ofNat 8 (vt / 256)) = .err →
          exec (.setFps a r) s = .next { s with
            reads := s.reads + 3, writes := s.writes + 3, status := 0xFFFFFFFF#32, busy := false
            trace := s.trace ++
              [.rd s.cfg.htsLAddr (.ok lo), .rd s.cfg.htsHAddr (.ok hi), .rd s.cfg.grpCtrlAddr (.ok c),
               .wr s.cfg.grpCtrlAddr (c ||| 0x80#8) .ok, .wr s.cfg.vtsLAddr (BitVec.ofNat 8 vt) .ok,
               .wr s.cfg.vtsHAddr (BitVec.ofNat 8 (vt / 256)) .err, .resp 0xFFFFFFFF#32 s.res0 s.res1] })))

/-- A horizontal total of 0 is the internal fault: `LOG.FAULT` set, `InternalFault`, no further port event, no attribute
written (R154, R226). R226 goes on that a model should treat such a run as faulted: that it is a next state with the flag set
is the model's reading, log entry 10. -/
def Obligations.ZeroHorizontalTotalIsInternalFault : Prop :=
  ∀ (a : Byte) (r : U32) (s : State), detected s = true → rateAccepted s.cfg r = true →
    readReply s 0 s.cfg.htsLAddr = .ok 0#8 → readReply s 1 s.cfg.htsHAddr = .ok 0#8 →
    exec (.setFps a r) s = .next { s with
      reads := s.reads + 2, log := s.log ||| 0x08#8, status := 0xFFFFFFFB#32, busy := false
      trace := s.trace ++
        [.rd s.cfg.htsLAddr (.ok 0#8), .rd s.cfg.htsHAddr (.ok 0#8), .resp 0xFFFFFFFB#32 s.res0 s.res1] }

/-- What acceptance of a rate gives: `scaled` is the floor of 256 times the rate, `num >= den >= 1`, and the vertical total
of any non-zero horizontal total is one division and at most half the pixel clock (R152, R153, R155, R156). -/
def Obligations.AcceptedRateBoundsVerticalTotal : Prop :=
  ∀ (c : Cfg) (r : U32), 1 ≤ c.minFps → rateAccepted c r = true →
    scaledFps r = 256 * (r.toNat / 65536) / (r.toNat % 65536) ∧ scaledFps r < 2 ^ 24 ∧
    1 ≤ r.toNat % 65536 ∧ r.toNat % 65536 ≤ r.toNat / 65536 ∧
    ∀ lo hi : Byte, horizontalTotal hi lo ≠ 0 →
      2 ≤ horizontalTotal hi lo ∧ horizontalTotal hi lo ≤ 131070 ∧
      verticalTotal c r (horizontalTotal hi lo) =
        c.pclk * (r.toNat % 65536) / (horizontalTotal hi lo * (r.toNat / 65536)) ∧
      verticalTotal c r (horizontalTotal hi lo) ≤ c.pclk / 2

/-- `SET_INTEGRATION_TIME` (opcode 0x10): in a detected phase the low byte then the high byte of `ARG0[15:0]`, the second
write attempted whatever the first was answered, `BusFailure` if either failed, nothing else changed; in the others
`NotDetected` with no port event (R162). -/
def Obligations.SetIntegrationTimeWritesBothBytes : Prop :=
  ∀ (a : Byte) (v : U32) (s : State) (r1 r2 : Reply),
    writeReply s 0 s.cfg.expoLAddr (BitVec.ofNat 8 v.toNat) = r1 →
    writeReply s 1 s.cfg.expoHAddr (BitVec.ofNat 8 (v.toNat / 256)) = r2 →
    decodeCommand (0x10#8 ++ a ++ v) = .setIntegrationTime a v ∧
    (s.phase = .preDetect ∨ s.phase = .detectFailed →
      exec (.setIntegrationTime a v) s = .next { s with
        status := 0xFFFFFFFE#32, busy := false, trace := s.trace ++ [.resp 0xFFFFFFFE#32 s.res0 s.res1] }) ∧
    (detected s = true →
      exec (.setIntegrationTime a v) s = .next { s with
        writes := s.writes + 2, status := if r1 = .ok ∧ r2 = .ok then 0#32 else 0xFFFFFFFF#32, busy := false
        trace := s.trace ++
          [.wr s.cfg.expoLAddr (BitVec.ofNat 8 v.toNat) r1, .wr s.cfg.expoHAddr (BitVec.ofNat 8 (v.toNat / 256)) r2,
           .resp (if r1 = .ok ∧ r2 = .ok then 0#32 else 0xFFFFFFFF#32) s.res0 s.res1] })
end

