-- ==== Sys2Proof/Laws/Numerics.lean ====
section
/-! SUPPORT. The constants `LOG2TAB` bracket the logarithms they stand for (spec 40_gain_codec.md R125), by repeated squaring
of bounds, and what that says at every fractional width. -/

namespace Sys2Proof.Machine

/-! ## Bounds of a power by repeated squaring -/

/-- Square a lower bound `a * 2^e`, cut to about 100 bits. -/
def squareLower (p : Nat × Nat) : Nat × Nat :=
  (p.1 * p.1 / 2 ^ (Nat.log2 (p.1 * p.1) - 100), 2 * p.2 + (Nat.log2 (p.1 * p.1) - 100))

/-- Square an upper bound `a * 2^e`, cut to about 100 bits and rounded up. -/
def squareUpper (p : Nat × Nat) : Nat × Nat :=
  ((p.1 * p.1 + (2 ^ (Nat.log2 (p.1 * p.1) - 100) - 1)) / 2 ^ (Nat.log2 (p.1 * p.1) - 100),
   2 * p.2 + (Nat.log2 (p.1 * p.1) - 100))

theorem squareLower_bound {p : Nat × Nat} {x : Nat} (h : p.1 * 2 ^ p.2 ≤ x) :
    (squareLower p).1 * 2 ^ (squareLower p).2 ≤ x ^ 2 := by
  simp only [squareLower]
  generalize Nat.log2 (p.1 * p.1) - 100 = k
  calc p.1 * p.1 / 2 ^ k * 2 ^ (2 * p.2 + k)
      = (p.1 * p.1 / 2 ^ k * 2 ^ k) * (2 ^ p.2) ^ 2 := by ring
    _ ≤ (p.1 * p.1) * (2 ^ p.2) ^ 2 := Nat.mul_le_mul_right _ (Nat.div_mul_le_self _ _)
    _ = (p.1 * 2 ^ p.2) ^ 2 := by ring
    _ ≤ x ^ 2 := Nat.pow_le_pow_left h 2

theorem squareUpper_bound {p : Nat × Nat} {x : Nat} (h : x ≤ p.1 * 2 ^ p.2) :
    x ^ 2 ≤ (squareUpper p).1 * 2 ^ (squareUpper p).2 := by
  simp only [squareUpper]
  generalize Nat.log2 (p.1 * p.1) - 100 = k
  calc x ^ 2 ≤ (p.1 * 2 ^ p.2) ^ 2 := Nat.pow_le_pow_left h 2
    _ = (p.1 * p.1) * (2 ^ p.2) ^ 2 := by ring
    _ ≤ ((p.1 * p.1 + (2 ^ k - 1)) / 2 ^ k * 2 ^ k) * (2 ^ p.2) ^ 2 := by
        apply Nat.mul_le_mul_right
        have h1 := Nat.div_add_mod (p.1 * p.1 + (2 ^ k - 1)) (2 ^ k)
        have h2 := Nat.mod_lt (p.1 * p.1 + (2 ^ k - 1)) (Nat.two_pow_pos k)
        rw [Nat.mul_comm (2 ^ k)] at h1
        omega
    _ = (p.1 * p.1 + (2 ^ k - 1)) / 2 ^ k * 2 ^ (2 * p.2 + k) := by ring

/-- `i` squarings bound the `2^i`-th power from below. -/
theorem iterate_squareLower (b i : Nat) :
    (squareLower^[i] (b, 0)).1 * 2 ^ (squareLower^[i] (b, 0)).2 ≤ b ^ 2 ^ i := by
  induction i with
  | zero => simp
  | succ i ih =>
    rw [Function.iterate_succ_apply', pow_succ, pow_mul]
    exact squareLower_bound ih

/-- `i` squarings bound the `2^i`-th power from above. -/
theorem iterate_squareUpper (b i : Nat) :
    b ^ 2 ^ i ≤ (squareUpper^[i] (b, 0)).1 * 2 ^ (squareUpper^[i] (b, 0)).2 := by
  induction i with
  | zero => simp
  | succ i ih =>
    rw [Function.iterate_succ_apply', pow_succ, pow_mul]
    exact squareUpper_bound ih

/-! ## The brackets of LOG2TAB -/

/-- `p` is a lower bound above `2^t`. -/
def lowerExceeds (p : Nat × Nat) (t : Nat) : Bool := decide (p.2 ≤ t) && decide (2 ^ (t - p.2) < p.1)

/-- `p` is an upper bound below `2^t`. -/
def upperBelow (p : Nat × Nat) (t : Nat) : Bool := decide (p.2 ≤ t) && decide (p.1 < 2 ^ (t - p.2))

theorem lt_of_lowerExceeds {p : Nat × Nat} {t x : Nat} (h : lowerExceeds p t = true) (hx : p.1 * 2 ^ p.2 ≤ x) :
    2 ^ t < x := by
  simp only [lowerExceeds, Bool.and_eq_true, decide_eq_true_eq] at h
  calc 2 ^ t = 2 ^ (t - p.2) * 2 ^ p.2 := by rw [← pow_add]; congr 1; omega
    _ < p.1 * 2 ^ p.2 := Nat.mul_lt_mul_of_pos_right h.2 (Nat.two_pow_pos _)
    _ ≤ x := hx

theorem lt_of_upperBelow {p : Nat × Nat} {t x : Nat} (h : upperBelow p t = true) (hx : x ≤ p.1 * 2 ^ p.2) :
    x < 2 ^ t := by
  simp only [upperBelow, Bool.and_eq_true, decide_eq_true_eq] at h
  calc x ≤ p.1 * 2 ^ p.2 := hx
    _ < 2 ^ (t - p.2) * 2 ^ p.2 := Nat.mul_lt_mul_of_pos_right h.2 (Nat.two_pow_pos _)
    _ = 2 ^ t := by rw [← pow_add]; congr 1; omega

/-- The computed bounds of `(16 + m)^(2^32)` lie strictly between `2^(4 * 2^32 + LOG2TAB[m])` and twice it. -/
def bracketChecked (m : Nat) : Bool :=
  lowerExceeds (squareLower^[32] (16 + m, 0)) (17179869184 + log2Tab.getD m 0) &&
    upperBelow (squareUpper^[32] (16 + m, 0)) (17179869184 + log2Tab.getD m 0 + 1)

theorem bracketChecked_all : ∀ m ∈ List.range' 1 15, bracketChecked m = true := by decide

/-- `LOG2TAB[m]` is the floor of `2^32 * log2(1 + m/16)`, and the logarithm is no integer multiple of `2^-32`, for `m` from 1
to 15: `2^T * 16^(2^32) < (16 + m)^(2^32) < 2^(T+1) * 16^(2^32)` (R125). -/
theorem log2Tab_bracket {m : Nat} (h1 : 1 ≤ m) (h2 : m ≤ 15) {i : Nat} (hi : i = 32) :
    2 ^ (4 * 2 ^ i + log2Tab.getD m 0) < (16 + m) ^ 2 ^ i ∧
      (16 + m) ^ 2 ^ i < 2 ^ (4 * 2 ^ i + log2Tab.getD m 0 + 1) := by
  have hc := bracketChecked_all m (List.mem_range'_1.2 ⟨h1, by omega⟩)
  simp only [bracketChecked, Bool.and_eq_true] at hc
  have he : 4 * 2 ^ i = 17179869184 := by subst hi; norm_num
  rw [he]
  subst hi
  exact ⟨lt_of_lowerExceeds hc.1 (iterate_squareLower (16 + m) 32),
    lt_of_upperBelow hc.2 (iterate_squareUpper (16 + m) 32)⟩

/-- The same at every fractional width up to 32: the threshold of `m` is the floor of `2^s * log2(1 + m/16)`, never the
logarithm itself (R125). -/
theorem threshold_bracket {m s : Nat} (h1 : 1 ≤ m) (h2 : m ≤ 15) (hs : s ≤ 32) :
    2 ^ (4 * 2 ^ s + threshold m s) < (16 + m) ^ 2 ^ s ∧
      (16 + m) ^ 2 ^ s < 2 ^ (4 * 2 ^ s + threshold m s + 1) := by
  obtain ⟨hl, hu⟩ := log2Tab_bracket h1 h2 (i := s + (32 - s)) (by omega)
  simp only [threshold, Nat.shiftRight_eq_div_pow]
  generalize log2Tab.getD m 0 = T at *
  generalize 32 - s = r at *
  have hd := Nat.div_add_mod T (2 ^ r)
  have hm := Nat.mod_lt T (Nat.two_pow_pos r)
  rw [pow_add 2 s r, pow_mul (16 + m)] at hl hu
  constructor
  · refine lt_of_pow_lt_pow_left₀ (2 ^ r) (Nat.zero_le _) (lt_of_le_of_lt ?_ hl)
    rw [← pow_mul]
    refine Nat.pow_le_pow_right (by decide) ?_
    calc (4 * 2 ^ s + T / 2 ^ r) * 2 ^ r = 4 * (2 ^ s * 2 ^ r) + 2 ^ r * (T / 2 ^ r) := by ring
      _ ≤ 4 * (2 ^ s * 2 ^ r) + T := by omega
  · refine lt_of_pow_lt_pow_left₀ (2 ^ r) (Nat.zero_le _) (lt_of_lt_of_le hu ?_)
    rw [← pow_mul]
    refine Nat.pow_le_pow_right (by decide) ?_
    calc 4 * (2 ^ s * 2 ^ r) + T + 1 ≤ 4 * (2 ^ s * 2 ^ r) + (2 ^ r * (T / 2 ^ r) + 2 ^ r) := by omega
      _ = (4 * 2 ^ s + T / 2 ^ r + 1) * 2 ^ r := by ring

/-- A threshold is a proper fraction: below `2^s`. -/
theorem threshold_lt {m s : Nat} (h2 : m ≤ 15) (hs : s ≤ 32) : threshold m s < 2 ^ s := by
  have hT : log2Tab.getD m 0 < 2 ^ 32 := by interval_cases m <;> decide
  simp only [threshold, Nat.shiftRight_eq_div_pow]
  rw [Nat.div_lt_iff_lt_mul (Nat.two_pow_pos _), ← pow_add, show s + (32 - s) = 32 by omega]
  exact hT

/-- The thresholds do not decrease with the mantissa. -/
theorem threshold_mono {m m' s : Nat} (h : m ≤ m') (h2 : m' ≤ 15) : threshold m s ≤ threshold m' s := by
  have hT : log2Tab.getD m 0 ≤ log2Tab.getD m' 0 := by
    interval_cases m' <;> interval_cases m <;> decide
  simp only [threshold, Nat.shiftRight_eq_div_pow]
  exact Nat.div_le_div_right hT

/-! ## Small lemmas of the codec's functions -/

theorem codeExponent_eq (c : Byte) : codeExponent c = c.toNat / 16 := by
  simp only [codeExponent, BitVec.extractLsb'_toNat, Nat.shiftRight_eq_div_pow]
  have := c.isLt
  omega

theorem codeMantissa_eq (c : Byte) : codeMantissa c = c.toNat % 16 := by
  simp only [codeMantissa, BitVec.extractLsb'_toNat, Nat.shiftRight_eq_div_pow]
  omega

theorem codeExponent_lt (c : Byte) : codeExponent c < 16 := by
  rw [codeExponent_eq]; have := c.isLt; omega

theorem codeMantissa_lt (c : Byte) : codeMantissa c < 16 := by
  rw [codeMantissa_eq]; omega

@[simp] theorem codeExponent_gainCode {e m : Nat} (he : e < 16) (hm : m < 16) :
    codeExponent (gainCode e m) = e := by
  rw [codeExponent_eq, gainCode, BitVec.toNat_ofNat]; omega

@[simp] theorem codeMantissa_gainCode {e m : Nat} (hm : m < 16) :
    codeMantissa (gainCode e m) = m := by
  rw [codeMantissa_eq, gainCode, BitVec.toNat_ofNat]; omega

/-- The two terms of `DLIN` share no bit: the magnitude is `(16 + m) * 2^(GFP + e - 4)` (R121). -/
theorem dlin_eq {gfp : Nat} (h : 4 ≤ gfp) (c : Byte) :
    dlin gfp c = (16 + codeMantissa c) * 2 ^ (gfp + codeExponent c - 4) := by
  have hm := codeMantissa_lt c
  have hp : 2 ^ (codeExponent c + gfp) = 16 * 2 ^ (gfp + codeExponent c - 4) := by
    rw [show codeExponent c + gfp = 4 + (gfp + codeExponent c - 4) by omega, pow_add]
    norm_num
  have hb : codeMantissa c * 2 ^ (gfp + codeExponent c - 4) < 2 ^ (codeExponent c + gfp) := by
    rw [hp]
    exact Nat.mul_lt_mul_of_pos_right hm (Nat.two_pow_pos _)
  have := Nat.two_pow_add_eq_or_of_lt hb 1
  simp only [dlin, Nat.shiftLeft_eq, one_mul]
  rw [mul_one] at this
  rw [← this, hp]
  ring

/-- The default `EXP2` is the largest `L` whose `2^s`-th power is at most `2^(GFP * 2^s + g)` (R123). -/
theorem le_exp2Floor_iff {gfp g s l : Nat} : l ≤ exp2Floor gfp g s ↔ l ^ 2 ^ s ≤ 2 ^ (gfp * 2 ^ s + g) := by
  have hs := Nat.two_pow_pos s
  have hbound : ∀ k, k ^ 2 ^ s ≤ 2 ^ (gfp * 2 ^ s + g) → k ≤ 2 ^ (gfp + g / 2 ^ s + 1) := by
    intro k hk
    refine (Nat.pow_le_pow_iff_left hs.ne').1 (hk.trans ?_)
    rw [← pow_mul]
    refine Nat.pow_le_pow_right (by decide) ?_
    have h1 := Nat.div_add_mod g (2 ^ s)
    have h2 := Nat.mod_lt g hs
    calc gfp * 2 ^ s + g ≤ gfp * 2 ^ s + (2 ^ s * (g / 2 ^ s) + 2 ^ s) := by omega
      _ = (gfp + g / 2 ^ s + 1) * 2 ^ s := by ring
  constructor
  · intro h
    have h0 : (0 : Nat) ^ 2 ^ s ≤ 2 ^ (gfp * 2 ^ s + g) := by rw [zero_pow hs.ne']; exact Nat.zero_le _
    have := Nat.findGreatest_spec (P := fun l => l ^ 2 ^ s ≤ 2 ^ (gfp * 2 ^ s + g))
      (Nat.zero_le (2 ^ (gfp + g / 2 ^ s + 1))) h0
    exact (Nat.pow_le_pow_left h _).trans this
  · intro h
    exact Nat.le_findGreatest (hbound l h) h

/-- Counting a predicate that holds up to some point counts to that point. -/
theorem le_count_iff {P : Nat → Bool} (hP : ∀ i j, 1 ≤ i → i ≤ j → P j = true → P i = true) (n : Nat) {j : Nat}
    (h1 : 1 ≤ j) (h2 : j ≤ n) : j ≤ ((List.range' 1 n).filter P).length ↔ P j = true := by
  have hle : ∀ n, ((List.range' 1 n).filter P).length ≤ n := fun n =>
    (List.length_filter_le _ _).trans (by simp)
  induction n with
  | zero => omega
  | succ n ih =>
    rw [List.range'_1_concat, List.filter_append, List.length_append]
    have hl := hle n
    by_cases hn : P (1 + n) = true
    · have hall : (List.range' 1 n).filter P = List.range' 1 n :=
        List.filter_eq_self.2 fun i hi => by
          rw [List.mem_range'_1] at hi
          exact hP i (1 + n) hi.1 (by omega) hn
      rw [hall]
      simp only [List.length_range', List.filter_cons, hn, if_true, List.filter_nil, List.length_cons, List.length_nil]
      exact ⟨fun _ => hP j (1 + n) h1 (by omega) hn, fun _ => by omega⟩
    · simp only [List.filter_cons, hn, List.filter_nil]
      by_cases hj : j = n + 1
      · subst hj
        rw [Nat.add_comm] at hn
        exact ⟨fun h => absurd h (by simp; omega), fun h => absurd h hn⟩
      · have := ih (by omega)
        simpa using this

theorem mant_le (f s : Nat) : mant f s ≤ 15 := by
  unfold mant
  exact (List.length_filter_le _ _).trans (by simp)

/-- The mantissa reaches `j` exactly when the fraction passes the threshold of `j` (R126 (2)). -/
theorem le_mant_iff {f s j : Nat} (h1 : 1 ≤ j) (h2 : j ≤ 15) : j ≤ mant f s ↔ threshold j s < f := by
  unfold mant
  have hmono : ∀ i j, 1 ≤ i → i ≤ j → decide (threshold j s < f ∧ j ≤ 15) = true →
      decide (threshold i s < f ∧ i ≤ 15) = true := by
    intro i j _ hij hj
    simp only [decide_eq_true_eq] at hj ⊢
    exact ⟨lt_of_le_of_lt (threshold_mono hij hj.2) hj.1, by omega⟩
  have hf : (List.range' 1 15).filter (fun j => decide (threshold j s < f)) =
      (List.range' 1 15).filter (fun j => decide (threshold j s < f ∧ j ≤ 15)) := by
    apply List.filter_congr
    intro i hi
    rw [List.mem_range'_1] at hi
    simp [show i ≤ 15 by omega]
  rw [hf, le_count_iff hmono 15 h1 h2]
  simp [h2]

/-! ## The default EXP2 inside its octave -/

/-- The default `EXP2` lies below the next power of two (R122 (c)). -/
theorem exp2Floor_lt {gfp g s : Nat} : exp2Floor gfp g s < 2 ^ (gfp + g / 2 ^ s + 1) := by
  by_contra h
  rw [not_lt, le_exp2Floor_iff, ← pow_mul, Nat.pow_le_pow_iff_right (by decide)] at h
  have h1 := Nat.div_add_mod g (2 ^ s)
  have h2 := Nat.mod_lt g (Nat.two_pow_pos s)
  have : (gfp + g / 2 ^ s + 1) * 2 ^ s = gfp * 2 ^ s + 2 ^ s * (g / 2 ^ s) + 2 ^ s := by ring
  omega

/-- The default `EXP2` is at least the power of two of its integer part (R122 (c)). -/
theorem exp2Floor_lower (gfp g s : Nat) : 2 ^ (gfp + g / 2 ^ s) ≤ exp2Floor gfp g s := by
  rw [le_exp2Floor_iff, ← pow_mul]
  refine Nat.pow_le_pow_right (by decide) ?_
  have := Nat.div_mul_le_self g (2 ^ s)
  rw [Nat.add_mul]
  omega

/-- The power reaches the linear magnitude of mantissa `j` exactly when the fraction passes the threshold of `j`: the step
that R126 (2) rests on. -/
theorem mantissa_le_exp2Floor_iff {gfp g s : Nat} (hg : 4 ≤ gfp) (hs : s ≤ 32) {j : Nat} (hj : j ≤ 15) :
    (16 + j) * 2 ^ (gfp + g / 2 ^ s - 4) ≤ exp2Floor gfp g s ↔ j = 0 ∨ threshold j s < g % 2 ^ s := by
  rw [le_exp2Floor_iff, mul_pow, ← pow_mul]
  have hd := Nat.div_add_mod g (2 ^ s)
  generalize g / 2 ^ s = n at *
  generalize g % 2 ^ s = f at *
  have hx : gfp * 2 ^ s + g = (4 * 2 ^ s + f) + (gfp + n - 4) * 2 ^ s := by
    have h : gfp + n = 4 + (gfp + n - 4) := by omega
    calc gfp * 2 ^ s + g = gfp * 2 ^ s + (2 ^ s * n + f) := by rw [hd]
      _ = (gfp + n) * 2 ^ s + f := by ring
      _ = (4 + (gfp + n - 4)) * 2 ^ s + f := by rw [← h]
      _ = _ := by ring
  rw [hx, pow_add, Nat.mul_le_mul_right_iff (Nat.two_pow_pos _)]
  by_cases hj0 : j = 0
  · subst hj0
    simp only [true_or, iff_true]
    rw [show (16 + 0) = 2 ^ 4 by norm_num, ← pow_mul]
    exact Nat.pow_le_pow_right (by decide) (by omega)
  · simp only [hj0, false_or]
    obtain ⟨h1, h2⟩ := threshold_bracket (m := j) (s := s) (by omega) hj hs
    constructor
    · intro h
      by_contra hc
      have : 2 ^ (4 * 2 ^ s + f) ≤ 2 ^ (4 * 2 ^ s + threshold j s) := Nat.pow_le_pow_right (by decide) (by omega)
      omega
    · intro h
      have : 2 ^ (4 * 2 ^ s + threshold j s + 1) ≤ 2 ^ (4 * 2 ^ s + f) := Nat.pow_le_pow_right (by decide) (by omega)
      omega

/-! ## Codes -/

theorem relog_eq (code : Byte) (s : Nat) :
    relog code s = codeExponent code * 2 ^ s + threshold (codeMantissa code) s := by
  simp [relog, Nat.shiftLeft_eq]

theorem gainCode_toNat {e m : Nat} (he : e < 16) (hm : m < 16) : (gainCode e m).toNat = 16 * e + m := by
  rw [gainCode, BitVec.toNat_ofNat]
  omega

theorem code_toNat (c : Byte) : c.toNat = 16 * codeExponent c + codeMantissa c := by
  rw [codeExponent_eq, codeMantissa_eq]
  omega

/-- `ENC`'s code under the default numerics, as one gain code (R129). -/
theorem closedCode_eq (g1 s : Nat) :
    closedCode g1 s =
      gainCode (if 4 ≤ g1 / 2 ^ s then 3 else g1 / 2 ^ s) (if 4 ≤ g1 / 2 ^ s then 15 else mant (g1 % 2 ^ s) s) := by
  unfold closedCode
  rw [Nat.shiftRight_eq_div_pow]
  split <;> simp_all [gainCode]

/-- A linear magnitude fits 32 bits for every code (R121). -/
theorem dlin_lt {gfp : Nat} (h : 4 ≤ gfp) (h2 : gfp ≤ 16) (c : Byte) : dlin gfp c < 2 ^ 32 := by
  rw [dlin_eq h]
  have h1 := codeExponent_lt c
  have h3 := codeMantissa_lt c
  calc _ < 2 ^ 5 * 2 ^ (gfp + codeExponent c - 4) := Nat.mul_lt_mul_of_pos_right (by omega) (Nat.two_pow_pos _)
    _ = 2 ^ (5 + (gfp + codeExponent c - 4)) := by rw [pow_add]
    _ ≤ 2 ^ 32 := Nat.pow_le_pow_right (by decide) (by omega)

/-- The scan of encode finds the octave of a magnitude in the window (R127). -/
theorem scanIndex_eq {gfp n l : Nat} (hn : n ≤ 3) (h1 : 2 ^ (gfp + n) ≤ l) (h2 : l < 2 ^ (gfp + n + 1)) :
    scanIndex gfp l = n := by
  have hb : ∀ k, n < k → l.testBit (gfp + k) = false := fun k hk =>
    Nat.testBit_lt_two_pow (lt_of_lt_of_le h2 (Nat.pow_le_pow_right (by decide) (by omega)))
  have ht : l.testBit (gfp + n) = true := by
    have : l / 2 ^ (gfp + n) = 1 := by
      rw [Nat.div_eq_iff (Nat.two_pow_pos _)]
      rw [pow_succ] at h2
      omega
    simp [Nat.testBit_eq_decide_div_mod_eq, this]
  unfold scanIndex
  interval_cases n
  · simp [hb 3 (by omega), hb 2 (by omega), hb 1 (by omega)]
  · simp [hb 3 (by omega), hb 2 (by omega), ht]
  · simp [hb 3 (by omega), ht]
  · simp [ht]

/-! ## A free instance stays inside the contract -/

theorem exp2Octave_bounds (id gfp s n f : Nat) :
    2 ^ (gfp + n) ≤ exp2Octave id gfp s n f ∧ exp2Octave id gfp s n f < 2 ^ (gfp + n + 1) := by
  have hp : 2 ^ (gfp + n) < 2 ^ (gfp + n + 1) := Nat.pow_lt_pow_right (by decide) (by omega)
  induction f with
  | zero => simp only [exp2Octave]; omega
  | succ f ih => simp only [exp2Octave]; omega

theorem exp2Octave_mono (id gfp s n : Nat) {d d' : Nat} (h : d ≤ d') :
    exp2Octave id gfp s n d ≤ exp2Octave id gfp s n d' := by
  induction h with
  | refl => exact le_rfl
  | step _ ih => simp only [exp2Octave]; omega

theorem log2Octave_bounds (id gfp s k cap d : Nat) (h : k * 2 ^ s ≤ cap) :
    k * 2 ^ s ≤ log2Octave id gfp s k cap d ∧ log2Octave id gfp s k cap d ≤ cap := by
  induction d with
  | zero => simp [log2Octave, h]
  | succ d ih => simp only [log2Octave]; omega

theorem log2Octave_mono (id gfp s k cap : Nat) {d d' : Nat} (h : d ≤ d') :
    log2Octave id gfp s k cap d ≤ log2Octave id gfp s k cap d' := by
  induction h with
  | refl => exact le_rfl
  | step _ ih => simp only [log2Octave]; omega

/-- The default `LOG2` above one, from the two powers of two around `l ^ 2^s` (R124). -/
theorem log2Floor_of_bounds {gfp l s k : Nat} (h : 2 ^ gfp < l) (hl : 2 ^ k ≤ l ^ 2 ^ s) (hu : l ^ 2 ^ s < 2 ^ (k + 1)) :
    log2Floor gfp l s = k - gfp * 2 ^ s := by
  have hn : l ^ 2 ^ s ≠ 0 := (lt_of_lt_of_le (Nat.two_pow_pos k) hl).ne'
  rw [log2Floor, if_neg (not_le.2 h), (Nat.log2_eq_iff hn).2 ⟨hl, hu⟩]

end Sys2Proof.Machine
end

