-- ==== Sys2Proof/Laws/State.lean ====
section
/-! SUPPORT. What each update of the state does to each field, one lemma per field per update, so that no proof unfolds a
record update. -/

namespace Sys2Proof.Machine

variable (s : State)

/-! ### `emit` -/

@[simp] theorem emit_op (e : Event) : (emit e s).op = s.op := rfl
@[simp] theorem emit_arg1 (e : Event) : (emit e s).arg1 = s.arg1 := rfl
@[simp] theorem emit_arg0 (e : Event) : (emit e s).arg0 = s.arg0 := rfl
@[simp] theorem emit_status (e : Event) : (emit e s).status = s.status := rfl
@[simp] theorem emit_res0 (e : Event) : (emit e s).res0 = s.res0 := rfl
@[simp] theorem emit_res1 (e : Event) : (emit e s).res1 = s.res1 := rfl
@[simp] theorem emit_busy (e : Event) : (emit e s).busy = s.busy := rfl
@[simp] theorem emit_phase (e : Event) : (emit e s).phase = s.phase := rfl
@[simp] theorem emit_activeMode (e : Event) : (emit e s).activeMode = s.activeMode := rfl
@[simp] theorem emit_curFps (e : Event) : (emit e s).curFps = s.curFps := rfl
@[simp] theorem emit_log (e : Event) : (emit e s).log = s.log := rfl
@[simp] theorem emit_rstHeld (e : Event) : (emit e s).rstHeld = s.rstHeld := rfl
@[simp] theorem emit_pwdnHeld (e : Event) : (emit e s).pwdnHeld = s.pwdnHeld := rfl
@[simp] theorem emit_attr (e : Event) : (emit e s).attr = s.attr := rfl
@[simp] theorem emit_tp (e : Event) : (emit e s).tp = s.tp := rfl
@[simp] theorem emit_cfg (e : Event) : (emit e s).cfg = s.cfg := rfl
@[simp] theorem emit_host (e : Event) : (emit e s).host = s.host := rfl
@[simp] theorem emit_readAnswers (e : Event) : (emit e s).readAnswers = s.readAnswers := rfl
@[simp] theorem emit_writeAnswers (e : Event) : (emit e s).writeAnswers = s.writeAnswers := rfl
@[simp] theorem emit_gpioAnswers (e : Event) : (emit e s).gpioAnswers = s.gpioAnswers := rfl
@[simp] theorem emit_reads (e : Event) : (emit e s).reads = s.reads := rfl
@[simp] theorem emit_writes (e : Event) : (emit e s).writes = s.writes := rfl
@[simp] theorem emit_gpios (e : Event) : (emit e s).gpios = s.gpios := rfl
@[simp] theorem emit_trace (e : Event) : (emit e s).trace = s.trace ++ [e] := rfl

/-! ### `afterRead` -/

@[simp] theorem afterRead_op (a : Byte) : (afterRead a s).op = s.op := rfl
@[simp] theorem afterRead_arg1 (a : Byte) : (afterRead a s).arg1 = s.arg1 := rfl
@[simp] theorem afterRead_arg0 (a : Byte) : (afterRead a s).arg0 = s.arg0 := rfl
@[simp] theorem afterRead_status (a : Byte) : (afterRead a s).status = s.status := rfl
@[simp] theorem afterRead_res0 (a : Byte) : (afterRead a s).res0 = s.res0 := rfl
@[simp] theorem afterRead_res1 (a : Byte) : (afterRead a s).res1 = s.res1 := rfl
@[simp] theorem afterRead_busy (a : Byte) : (afterRead a s).busy = s.busy := rfl
@[simp] theorem afterRead_phase (a : Byte) : (afterRead a s).phase = s.phase := rfl
@[simp] theorem afterRead_activeMode (a : Byte) : (afterRead a s).activeMode = s.activeMode := rfl
@[simp] theorem afterRead_curFps (a : Byte) : (afterRead a s).curFps = s.curFps := rfl
@[simp] theorem afterRead_log (a : Byte) : (afterRead a s).log = s.log := rfl
@[simp] theorem afterRead_rstHeld (a : Byte) : (afterRead a s).rstHeld = s.rstHeld := rfl
@[simp] theorem afterRead_pwdnHeld (a : Byte) : (afterRead a s).pwdnHeld = s.pwdnHeld := rfl
@[simp] theorem afterRead_attr (a : Byte) : (afterRead a s).attr = s.attr := rfl
@[simp] theorem afterRead_tp (a : Byte) : (afterRead a s).tp = s.tp := rfl
@[simp] theorem afterRead_cfg (a : Byte) : (afterRead a s).cfg = s.cfg := rfl
@[simp] theorem afterRead_host (a : Byte) : (afterRead a s).host = s.host := rfl
@[simp] theorem afterRead_readAnswers (a : Byte) : (afterRead a s).readAnswers = s.readAnswers := rfl
@[simp] theorem afterRead_writeAnswers (a : Byte) : (afterRead a s).writeAnswers = s.writeAnswers := rfl
@[simp] theorem afterRead_gpioAnswers (a : Byte) : (afterRead a s).gpioAnswers = s.gpioAnswers := rfl
@[simp] theorem afterRead_reads (a : Byte) : (afterRead a s).reads = s.reads + 1 := rfl
@[simp] theorem afterRead_writes (a : Byte) : (afterRead a s).writes = s.writes := rfl
@[simp] theorem afterRead_gpios (a : Byte) : (afterRead a s).gpios = s.gpios := rfl
@[simp] theorem afterRead_trace (a : Byte) : (afterRead a s).trace = s.trace ++ [.rd a (readReply s 0 a)] := rfl

/-! ### `afterWrite` -/

@[simp] theorem afterWrite_op (a v : Byte) : (afterWrite a v s).op = s.op := rfl
@[simp] theorem afterWrite_arg1 (a v : Byte) : (afterWrite a v s).arg1 = s.arg1 := rfl
@[simp] theorem afterWrite_arg0 (a v : Byte) : (afterWrite a v s).arg0 = s.arg0 := rfl
@[simp] theorem afterWrite_status (a v : Byte) : (afterWrite a v s).status = s.status := rfl
@[simp] theorem afterWrite_res0 (a v : Byte) : (afterWrite a v s).res0 = s.res0 := rfl
@[simp] theorem afterWrite_res1 (a v : Byte) : (afterWrite a v s).res1 = s.res1 := rfl
@[simp] theorem afterWrite_busy (a v : Byte) : (afterWrite a v s).busy = s.busy := rfl
@[simp] theorem afterWrite_phase (a v : Byte) : (afterWrite a v s).phase = s.phase := rfl
@[simp] theorem afterWrite_activeMode (a v : Byte) : (afterWrite a v s).activeMode = s.activeMode := rfl
@[simp] theorem afterWrite_curFps (a v : Byte) : (afterWrite a v s).curFps = s.curFps := rfl
@[simp] theorem afterWrite_log (a v : Byte) : (afterWrite a v s).log = s.log := rfl
@[simp] theorem afterWrite_rstHeld (a v : Byte) : (afterWrite a v s).rstHeld = s.rstHeld := rfl
@[simp] theorem afterWrite_pwdnHeld (a v : Byte) : (afterWrite a v s).pwdnHeld = s.pwdnHeld := rfl
@[simp] theorem afterWrite_attr (a v : Byte) : (afterWrite a v s).attr = s.attr := rfl
@[simp] theorem afterWrite_tp (a v : Byte) : (afterWrite a v s).tp = s.tp := rfl
@[simp] theorem afterWrite_cfg (a v : Byte) : (afterWrite a v s).cfg = s.cfg := rfl
@[simp] theorem afterWrite_host (a v : Byte) : (afterWrite a v s).host = s.host := rfl
@[simp] theorem afterWrite_readAnswers (a v : Byte) : (afterWrite a v s).readAnswers = s.readAnswers := rfl
@[simp] theorem afterWrite_writeAnswers (a v : Byte) : (afterWrite a v s).writeAnswers = s.writeAnswers := rfl
@[simp] theorem afterWrite_gpioAnswers (a v : Byte) : (afterWrite a v s).gpioAnswers = s.gpioAnswers := rfl
@[simp] theorem afterWrite_reads (a v : Byte) : (afterWrite a v s).reads = s.reads := rfl
@[simp] theorem afterWrite_writes (a v : Byte) : (afterWrite a v s).writes = s.writes + 1 := rfl
@[simp] theorem afterWrite_gpios (a v : Byte) : (afterWrite a v s).gpios = s.gpios := rfl
@[simp] theorem afterWrite_trace (a v : Byte) : (afterWrite a v s).trace = s.trace ++ [.wr a v (writeReply s 0 a v)] := rfl

/-! ### `afterGpioRequest` -/

@[simp] theorem afterGpioRequest_op (pin : Nat) : (afterGpioRequest pin s).op = s.op := rfl
@[simp] theorem afterGpioRequest_arg1 (pin : Nat) : (afterGpioRequest pin s).arg1 = s.arg1 := rfl
@[simp] theorem afterGpioRequest_arg0 (pin : Nat) : (afterGpioRequest pin s).arg0 = s.arg0 := rfl
@[simp] theorem afterGpioRequest_status (pin : Nat) : (afterGpioRequest pin s).status = s.status := rfl
@[simp] theorem afterGpioRequest_res0 (pin : Nat) : (afterGpioRequest pin s).res0 = s.res0 := rfl
@[simp] theorem afterGpioRequest_res1 (pin : Nat) : (afterGpioRequest pin s).res1 = s.res1 := rfl
@[simp] theorem afterGpioRequest_busy (pin : Nat) : (afterGpioRequest pin s).busy = s.busy := rfl
@[simp] theorem afterGpioRequest_phase (pin : Nat) : (afterGpioRequest pin s).phase = s.phase := rfl
@[simp] theorem afterGpioRequest_activeMode (pin : Nat) : (afterGpioRequest pin s).activeMode = s.activeMode := rfl
@[simp] theorem afterGpioRequest_curFps (pin : Nat) : (afterGpioRequest pin s).curFps = s.curFps := rfl
@[simp] theorem afterGpioRequest_log (pin : Nat) : (afterGpioRequest pin s).log = s.log := rfl
@[simp] theorem afterGpioRequest_rstHeld (pin : Nat) : (afterGpioRequest pin s).rstHeld = s.rstHeld := rfl
@[simp] theorem afterGpioRequest_pwdnHeld (pin : Nat) : (afterGpioRequest pin s).pwdnHeld = s.pwdnHeld := rfl
@[simp] theorem afterGpioRequest_attr (pin : Nat) : (afterGpioRequest pin s).attr = s.attr := rfl
@[simp] theorem afterGpioRequest_tp (pin : Nat) : (afterGpioRequest pin s).tp = s.tp := rfl
@[simp] theorem afterGpioRequest_cfg (pin : Nat) : (afterGpioRequest pin s).cfg = s.cfg := rfl
@[simp] theorem afterGpioRequest_host (pin : Nat) : (afterGpioRequest pin s).host = s.host := rfl
@[simp] theorem afterGpioRequest_readAnswers (pin : Nat) : (afterGpioRequest pin s).readAnswers = s.readAnswers := rfl
@[simp] theorem afterGpioRequest_writeAnswers (pin : Nat) : (afterGpioRequest pin s).writeAnswers = s.writeAnswers := rfl
@[simp] theorem afterGpioRequest_gpioAnswers (pin : Nat) : (afterGpioRequest pin s).gpioAnswers = s.gpioAnswers := rfl
@[simp] theorem afterGpioRequest_reads (pin : Nat) : (afterGpioRequest pin s).reads = s.reads := rfl
@[simp] theorem afterGpioRequest_writes (pin : Nat) : (afterGpioRequest pin s).writes = s.writes := rfl
@[simp] theorem afterGpioRequest_gpios (pin : Nat) : (afterGpioRequest pin s).gpios = s.gpios + 1 := rfl
@[simp] theorem afterGpioRequest_trace (pin : Nat) : (afterGpioRequest pin s).trace = s.trace ++ [.gpioReq pin (gpioReply s 0 pin)] := rfl

/-! ### `sleep` -/

@[simp] theorem sleep_op (ms : Nat) : (sleep ms s).op = s.op := rfl
@[simp] theorem sleep_arg1 (ms : Nat) : (sleep ms s).arg1 = s.arg1 := rfl
@[simp] theorem sleep_arg0 (ms : Nat) : (sleep ms s).arg0 = s.arg0 := rfl
@[simp] theorem sleep_status (ms : Nat) : (sleep ms s).status = s.status := rfl
@[simp] theorem sleep_res0 (ms : Nat) : (sleep ms s).res0 = s.res0 := rfl
@[simp] theorem sleep_res1 (ms : Nat) : (sleep ms s).res1 = s.res1 := rfl
@[simp] theorem sleep_busy (ms : Nat) : (sleep ms s).busy = s.busy := rfl
@[simp] theorem sleep_phase (ms : Nat) : (sleep ms s).phase = s.phase := rfl
@[simp] theorem sleep_activeMode (ms : Nat) : (sleep ms s).activeMode = s.activeMode := rfl
@[simp] theorem sleep_curFps (ms : Nat) : (sleep ms s).curFps = s.curFps := rfl
@[simp] theorem sleep_log (ms : Nat) : (sleep ms s).log = s.log := rfl
@[simp] theorem sleep_rstHeld (ms : Nat) : (sleep ms s).rstHeld = s.rstHeld := rfl
@[simp] theorem sleep_pwdnHeld (ms : Nat) : (sleep ms s).pwdnHeld = s.pwdnHeld := rfl
@[simp] theorem sleep_attr (ms : Nat) : (sleep ms s).attr = s.attr := rfl
@[simp] theorem sleep_tp (ms : Nat) : (sleep ms s).tp = s.tp := rfl
@[simp] theorem sleep_cfg (ms : Nat) : (sleep ms s).cfg = s.cfg := rfl
@[simp] theorem sleep_host (ms : Nat) : (sleep ms s).host = s.host := rfl
@[simp] theorem sleep_readAnswers (ms : Nat) : (sleep ms s).readAnswers = s.readAnswers := rfl
@[simp] theorem sleep_writeAnswers (ms : Nat) : (sleep ms s).writeAnswers = s.writeAnswers := rfl
@[simp] theorem sleep_gpioAnswers (ms : Nat) : (sleep ms s).gpioAnswers = s.gpioAnswers := rfl
@[simp] theorem sleep_reads (ms : Nat) : (sleep ms s).reads = s.reads := rfl
@[simp] theorem sleep_writes (ms : Nat) : (sleep ms s).writes = s.writes := rfl
@[simp] theorem sleep_gpios (ms : Nat) : (sleep ms s).gpios = s.gpios := rfl
@[simp] theorem sleep_trace (ms : Nat) : (sleep ms s).trace = s.trace ++ [.sleep ms] := rfl

/-! ### `gpioSet` -/

@[simp] theorem gpioSet_op (pin : Nat) (l : Level) : (gpioSet pin l s).op = s.op := rfl
@[simp] theorem gpioSet_arg1 (pin : Nat) (l : Level) : (gpioSet pin l s).arg1 = s.arg1 := rfl
@[simp] theorem gpioSet_arg0 (pin : Nat) (l : Level) : (gpioSet pin l s).arg0 = s.arg0 := rfl
@[simp] theorem gpioSet_status (pin : Nat) (l : Level) : (gpioSet pin l s).status = s.status := rfl
@[simp] theorem gpioSet_res0 (pin : Nat) (l : Level) : (gpioSet pin l s).res0 = s.res0 := rfl
@[simp] theorem gpioSet_res1 (pin : Nat) (l : Level) : (gpioSet pin l s).res1 = s.res1 := rfl
@[simp] theorem gpioSet_busy (pin : Nat) (l : Level) : (gpioSet pin l s).busy = s.busy := rfl
@[simp] theorem gpioSet_phase (pin : Nat) (l : Level) : (gpioSet pin l s).phase = s.phase := rfl
@[simp] theorem gpioSet_activeMode (pin : Nat) (l : Level) : (gpioSet pin l s).activeMode = s.activeMode := rfl
@[simp] theorem gpioSet_curFps (pin : Nat) (l : Level) : (gpioSet pin l s).curFps = s.curFps := rfl
@[simp] theorem gpioSet_log (pin : Nat) (l : Level) : (gpioSet pin l s).log = s.log := rfl
@[simp] theorem gpioSet_rstHeld (pin : Nat) (l : Level) : (gpioSet pin l s).rstHeld = s.rstHeld := rfl
@[simp] theorem gpioSet_pwdnHeld (pin : Nat) (l : Level) : (gpioSet pin l s).pwdnHeld = s.pwdnHeld := rfl
@[simp] theorem gpioSet_attr (pin : Nat) (l : Level) : (gpioSet pin l s).attr = s.attr := rfl
@[simp] theorem gpioSet_tp (pin : Nat) (l : Level) : (gpioSet pin l s).tp = s.tp := rfl
@[simp] theorem gpioSet_cfg (pin : Nat) (l : Level) : (gpioSet pin l s).cfg = s.cfg := rfl
@[simp] theorem gpioSet_host (pin : Nat) (l : Level) : (gpioSet pin l s).host = s.host := rfl
@[simp] theorem gpioSet_readAnswers (pin : Nat) (l : Level) : (gpioSet pin l s).readAnswers = s.readAnswers := rfl
@[simp] theorem gpioSet_writeAnswers (pin : Nat) (l : Level) : (gpioSet pin l s).writeAnswers = s.writeAnswers := rfl
@[simp] theorem gpioSet_gpioAnswers (pin : Nat) (l : Level) : (gpioSet pin l s).gpioAnswers = s.gpioAnswers := rfl
@[simp] theorem gpioSet_reads (pin : Nat) (l : Level) : (gpioSet pin l s).reads = s.reads := rfl
@[simp] theorem gpioSet_writes (pin : Nat) (l : Level) : (gpioSet pin l s).writes = s.writes := rfl
@[simp] theorem gpioSet_gpios (pin : Nat) (l : Level) : (gpioSet pin l s).gpios = s.gpios := rfl
@[simp] theorem gpioSet_trace (pin : Nat) (l : Level) : (gpioSet pin l s).trace = s.trace ++ [.gpioSet pin l] := rfl

/-! ### `finish` -/

@[simp] theorem finish_op (c : U32) : (finish c s).op = s.op := rfl
@[simp] theorem finish_arg1 (c : U32) : (finish c s).arg1 = s.arg1 := rfl
@[simp] theorem finish_arg0 (c : U32) : (finish c s).arg0 = s.arg0 := rfl
@[simp] theorem finish_status (c : U32) : (finish c s).status = c := rfl
@[simp] theorem finish_res0 (c : U32) : (finish c s).res0 = s.res0 := rfl
@[simp] theorem finish_res1 (c : U32) : (finish c s).res1 = s.res1 := rfl
@[simp] theorem finish_busy (c : U32) : (finish c s).busy = false := rfl
@[simp] theorem finish_phase (c : U32) : (finish c s).phase = s.phase := rfl
@[simp] theorem finish_activeMode (c : U32) : (finish c s).activeMode = s.activeMode := rfl
@[simp] theorem finish_curFps (c : U32) : (finish c s).curFps = s.curFps := rfl
@[simp] theorem finish_log (c : U32) : (finish c s).log = s.log := rfl
@[simp] theorem finish_rstHeld (c : U32) : (finish c s).rstHeld = s.rstHeld := rfl
@[simp] theorem finish_pwdnHeld (c : U32) : (finish c s).pwdnHeld = s.pwdnHeld := rfl
@[simp] theorem finish_attr (c : U32) : (finish c s).attr = s.attr := rfl
@[simp] theorem finish_tp (c : U32) : (finish c s).tp = s.tp := rfl
@[simp] theorem finish_cfg (c : U32) : (finish c s).cfg = s.cfg := rfl
@[simp] theorem finish_host (c : U32) : (finish c s).host = s.host := rfl
@[simp] theorem finish_readAnswers (c : U32) : (finish c s).readAnswers = s.readAnswers := rfl
@[simp] theorem finish_writeAnswers (c : U32) : (finish c s).writeAnswers = s.writeAnswers := rfl
@[simp] theorem finish_gpioAnswers (c : U32) : (finish c s).gpioAnswers = s.gpioAnswers := rfl
@[simp] theorem finish_reads (c : U32) : (finish c s).reads = s.reads := rfl
@[simp] theorem finish_writes (c : U32) : (finish c s).writes = s.writes := rfl
@[simp] theorem finish_gpios (c : U32) : (finish c s).gpios = s.gpios := rfl
@[simp] theorem finish_trace (c : U32) : (finish c s).trace = s.trace ++ [.resp c s.res0 s.res1] := rfl

/-! ### `done` -/

@[simp] theorem done_op : (done s).op = s.op := rfl
@[simp] theorem done_arg1 : (done s).arg1 = s.arg1 := rfl
@[simp] theorem done_arg0 : (done s).arg0 = s.arg0 := rfl
@[simp] theorem done_status : (done s).status = 0#32 := rfl
@[simp] theorem done_res0 : (done s).res0 = s.res0 := rfl
@[simp] theorem done_res1 : (done s).res1 = s.res1 := rfl
@[simp] theorem done_busy : (done s).busy = false := rfl
@[simp] theorem done_phase : (done s).phase = s.phase := rfl
@[simp] theorem done_activeMode : (done s).activeMode = s.activeMode := rfl
@[simp] theorem done_curFps : (done s).curFps = s.curFps := rfl
@[simp] theorem done_log : (done s).log = s.log := rfl
@[simp] theorem done_rstHeld : (done s).rstHeld = s.rstHeld := rfl
@[simp] theorem done_pwdnHeld : (done s).pwdnHeld = s.pwdnHeld := rfl
@[simp] theorem done_attr : (done s).attr = s.attr := rfl
@[simp] theorem done_tp : (done s).tp = s.tp := rfl
@[simp] theorem done_cfg : (done s).cfg = s.cfg := rfl
@[simp] theorem done_host : (done s).host = s.host := rfl
@[simp] theorem done_readAnswers : (done s).readAnswers = s.readAnswers := rfl
@[simp] theorem done_writeAnswers : (done s).writeAnswers = s.writeAnswers := rfl
@[simp] theorem done_gpioAnswers : (done s).gpioAnswers = s.gpioAnswers := rfl
@[simp] theorem done_reads : (done s).reads = s.reads := rfl
@[simp] theorem done_writes : (done s).writes = s.writes := rfl
@[simp] theorem done_gpios : (done s).gpios = s.gpios := rfl
@[simp] theorem done_trace : (done s).trace = s.trace ++ [.resp 0#32 s.res0 s.res1] := rfl

/-! ### `raise` -/

@[simp] theorem raise_op (k : ErrorKind) : (raise k s).op = s.op := rfl
@[simp] theorem raise_arg1 (k : ErrorKind) : (raise k s).arg1 = s.arg1 := rfl
@[simp] theorem raise_arg0 (k : ErrorKind) : (raise k s).arg0 = s.arg0 := rfl
@[simp] theorem raise_status (k : ErrorKind) : (raise k s).status = statusCode k := rfl
@[simp] theorem raise_res0 (k : ErrorKind) : (raise k s).res0 = s.res0 := rfl
@[simp] theorem raise_res1 (k : ErrorKind) : (raise k s).res1 = s.res1 := rfl
@[simp] theorem raise_busy (k : ErrorKind) : (raise k s).busy = false := rfl
@[simp] theorem raise_phase (k : ErrorKind) : (raise k s).phase = s.phase := rfl
@[simp] theorem raise_activeMode (k : ErrorKind) : (raise k s).activeMode = s.activeMode := rfl
@[simp] theorem raise_curFps (k : ErrorKind) : (raise k s).curFps = s.curFps := rfl
@[simp] theorem raise_log (k : ErrorKind) : (raise k s).log = s.log := rfl
@[simp] theorem raise_rstHeld (k : ErrorKind) : (raise k s).rstHeld = s.rstHeld := rfl
@[simp] theorem raise_pwdnHeld (k : ErrorKind) : (raise k s).pwdnHeld = s.pwdnHeld := rfl
@[simp] theorem raise_attr (k : ErrorKind) : (raise k s).attr = s.attr := rfl
@[simp] theorem raise_tp (k : ErrorKind) : (raise k s).tp = s.tp := rfl
@[simp] theorem raise_cfg (k : ErrorKind) : (raise k s).cfg = s.cfg := rfl
@[simp] theorem raise_host (k : ErrorKind) : (raise k s).host = s.host := rfl
@[simp] theorem raise_readAnswers (k : ErrorKind) : (raise k s).readAnswers = s.readAnswers := rfl
@[simp] theorem raise_writeAnswers (k : ErrorKind) : (raise k s).writeAnswers = s.writeAnswers := rfl
@[simp] theorem raise_gpioAnswers (k : ErrorKind) : (raise k s).gpioAnswers = s.gpioAnswers := rfl
@[simp] theorem raise_reads (k : ErrorKind) : (raise k s).reads = s.reads := rfl
@[simp] theorem raise_writes (k : ErrorKind) : (raise k s).writes = s.writes := rfl
@[simp] theorem raise_gpios (k : ErrorKind) : (raise k s).gpios = s.gpios := rfl
@[simp] theorem raise_trace (k : ErrorKind) : (raise k s).trace = s.trace ++ [.resp (statusCode k) s.res0 s.res1] := rfl

/-! ### `setLog` -/

@[simp] theorem setLog_op (b : Byte) : (setLog b s).op = s.op := rfl
@[simp] theorem setLog_arg1 (b : Byte) : (setLog b s).arg1 = s.arg1 := rfl
@[simp] theorem setLog_arg0 (b : Byte) : (setLog b s).arg0 = s.arg0 := rfl
@[simp] theorem setLog_status (b : Byte) : (setLog b s).status = s.status := rfl
@[simp] theorem setLog_res0 (b : Byte) : (setLog b s).res0 = s.res0 := rfl
@[simp] theorem setLog_res1 (b : Byte) : (setLog b s).res1 = s.res1 := rfl
@[simp] theorem setLog_busy (b : Byte) : (setLog b s).busy = s.busy := rfl
@[simp] theorem setLog_phase (b : Byte) : (setLog b s).phase = s.phase := rfl
@[simp] theorem setLog_activeMode (b : Byte) : (setLog b s).activeMode = s.activeMode := rfl
@[simp] theorem setLog_curFps (b : Byte) : (setLog b s).curFps = s.curFps := rfl
@[simp] theorem setLog_log (b : Byte) : (setLog b s).log = s.log ||| b := rfl
@[simp] theorem setLog_rstHeld (b : Byte) : (setLog b s).rstHeld = s.rstHeld := rfl
@[simp] theorem setLog_pwdnHeld (b : Byte) : (setLog b s).pwdnHeld = s.pwdnHeld := rfl
@[simp] theorem setLog_attr (b : Byte) : (setLog b s).attr = s.attr := rfl
@[simp] theorem setLog_tp (b : Byte) : (setLog b s).tp = s.tp := rfl
@[simp] theorem setLog_cfg (b : Byte) : (setLog b s).cfg = s.cfg := rfl
@[simp] theorem setLog_host (b : Byte) : (setLog b s).host = s.host := rfl
@[simp] theorem setLog_readAnswers (b : Byte) : (setLog b s).readAnswers = s.readAnswers := rfl
@[simp] theorem setLog_writeAnswers (b : Byte) : (setLog b s).writeAnswers = s.writeAnswers := rfl
@[simp] theorem setLog_gpioAnswers (b : Byte) : (setLog b s).gpioAnswers = s.gpioAnswers := rfl
@[simp] theorem setLog_reads (b : Byte) : (setLog b s).reads = s.reads := rfl
@[simp] theorem setLog_writes (b : Byte) : (setLog b s).writes = s.writes := rfl
@[simp] theorem setLog_gpios (b : Byte) : (setLog b s).gpios = s.gpios := rfl
@[simp] theorem setLog_trace (b : Byte) : (setLog b s).trace = s.trace := rfl

/-! ### `setRstHeld` -/

@[simp] theorem setRstHeld_op (b : Bool) : (setRstHeld b s).op = s.op := rfl
@[simp] theorem setRstHeld_arg1 (b : Bool) : (setRstHeld b s).arg1 = s.arg1 := rfl
@[simp] theorem setRstHeld_arg0 (b : Bool) : (setRstHeld b s).arg0 = s.arg0 := rfl
@[simp] theorem setRstHeld_status (b : Bool) : (setRstHeld b s).status = s.status := rfl
@[simp] theorem setRstHeld_res0 (b : Bool) : (setRstHeld b s).res0 = s.res0 := rfl
@[simp] theorem setRstHeld_res1 (b : Bool) : (setRstHeld b s).res1 = s.res1 := rfl
@[simp] theorem setRstHeld_busy (b : Bool) : (setRstHeld b s).busy = s.busy := rfl
@[simp] theorem setRstHeld_phase (b : Bool) : (setRstHeld b s).phase = s.phase := rfl
@[simp] theorem setRstHeld_activeMode (b : Bool) : (setRstHeld b s).activeMode = s.activeMode := rfl
@[simp] theorem setRstHeld_curFps (b : Bool) : (setRstHeld b s).curFps = s.curFps := rfl
@[simp] theorem setRstHeld_log (b : Bool) : (setRstHeld b s).log = s.log := rfl
@[simp] theorem setRstHeld_rstHeld (b : Bool) : (setRstHeld b s).rstHeld = b := rfl
@[simp] theorem setRstHeld_pwdnHeld (b : Bool) : (setRstHeld b s).pwdnHeld = s.pwdnHeld := rfl
@[simp] theorem setRstHeld_attr (b : Bool) : (setRstHeld b s).attr = s.attr := rfl
@[simp] theorem setRstHeld_tp (b : Bool) : (setRstHeld b s).tp = s.tp := rfl
@[simp] theorem setRstHeld_cfg (b : Bool) : (setRstHeld b s).cfg = s.cfg := rfl
@[simp] theorem setRstHeld_host (b : Bool) : (setRstHeld b s).host = s.host := rfl
@[simp] theorem setRstHeld_readAnswers (b : Bool) : (setRstHeld b s).readAnswers = s.readAnswers := rfl
@[simp] theorem setRstHeld_writeAnswers (b : Bool) : (setRstHeld b s).writeAnswers = s.writeAnswers := rfl
@[simp] theorem setRstHeld_gpioAnswers (b : Bool) : (setRstHeld b s).gpioAnswers = s.gpioAnswers := rfl
@[simp] theorem setRstHeld_reads (b : Bool) : (setRstHeld b s).reads = s.reads := rfl
@[simp] theorem setRstHeld_writes (b : Bool) : (setRstHeld b s).writes = s.writes := rfl
@[simp] theorem setRstHeld_gpios (b : Bool) : (setRstHeld b s).gpios = s.gpios := rfl
@[simp] theorem setRstHeld_trace (b : Bool) : (setRstHeld b s).trace = s.trace := rfl

/-! ### `setPwdnHeld` -/

@[simp] theorem setPwdnHeld_op (b : Bool) : (setPwdnHeld b s).op = s.op := rfl
@[simp] theorem setPwdnHeld_arg1 (b : Bool) : (setPwdnHeld b s).arg1 = s.arg1 := rfl
@[simp] theorem setPwdnHeld_arg0 (b : Bool) : (setPwdnHeld b s).arg0 = s.arg0 := rfl
@[simp] theorem setPwdnHeld_status (b : Bool) : (setPwdnHeld b s).status = s.status := rfl
@[simp] theorem setPwdnHeld_res0 (b : Bool) : (setPwdnHeld b s).res0 = s.res0 := rfl
@[simp] theorem setPwdnHeld_res1 (b : Bool) : (setPwdnHeld b s).res1 = s.res1 := rfl
@[simp] theorem setPwdnHeld_busy (b : Bool) : (setPwdnHeld b s).busy = s.busy := rfl
@[simp] theorem setPwdnHeld_phase (b : Bool) : (setPwdnHeld b s).phase = s.phase := rfl
@[simp] theorem setPwdnHeld_activeMode (b : Bool) : (setPwdnHeld b s).activeMode = s.activeMode := rfl
@[simp] theorem setPwdnHeld_curFps (b : Bool) : (setPwdnHeld b s).curFps = s.curFps := rfl
@[simp] theorem setPwdnHeld_log (b : Bool) : (setPwdnHeld b s).log = s.log := rfl
@[simp] theorem setPwdnHeld_rstHeld (b : Bool) : (setPwdnHeld b s).rstHeld = s.rstHeld := rfl
@[simp] theorem setPwdnHeld_pwdnHeld (b : Bool) : (setPwdnHeld b s).pwdnHeld = b := rfl
@[simp] theorem setPwdnHeld_attr (b : Bool) : (setPwdnHeld b s).attr = s.attr := rfl
@[simp] theorem setPwdnHeld_tp (b : Bool) : (setPwdnHeld b s).tp = s.tp := rfl
@[simp] theorem setPwdnHeld_cfg (b : Bool) : (setPwdnHeld b s).cfg = s.cfg := rfl
@[simp] theorem setPwdnHeld_host (b : Bool) : (setPwdnHeld b s).host = s.host := rfl
@[simp] theorem setPwdnHeld_readAnswers (b : Bool) : (setPwdnHeld b s).readAnswers = s.readAnswers := rfl
@[simp] theorem setPwdnHeld_writeAnswers (b : Bool) : (setPwdnHeld b s).writeAnswers = s.writeAnswers := rfl
@[simp] theorem setPwdnHeld_gpioAnswers (b : Bool) : (setPwdnHeld b s).gpioAnswers = s.gpioAnswers := rfl
@[simp] theorem setPwdnHeld_reads (b : Bool) : (setPwdnHeld b s).reads = s.reads := rfl
@[simp] theorem setPwdnHeld_writes (b : Bool) : (setPwdnHeld b s).writes = s.writes := rfl
@[simp] theorem setPwdnHeld_gpios (b : Bool) : (setPwdnHeld b s).gpios = s.gpios := rfl
@[simp] theorem setPwdnHeld_trace (b : Bool) : (setPwdnHeld b s).trace = s.trace := rfl

/-! ### `setResults` -/

@[simp] theorem setResults_op (r0 r1 : U32) : (setResults r0 r1 s).op = s.op := rfl
@[simp] theorem setResults_arg1 (r0 r1 : U32) : (setResults r0 r1 s).arg1 = s.arg1 := rfl
@[simp] theorem setResults_arg0 (r0 r1 : U32) : (setResults r0 r1 s).arg0 = s.arg0 := rfl
@[simp] theorem setResults_status (r0 r1 : U32) : (setResults r0 r1 s).status = s.status := rfl
@[simp] theorem setResults_res0 (r0 r1 : U32) : (setResults r0 r1 s).res0 = r0 := rfl
@[simp] theorem setResults_res1 (r0 r1 : U32) : (setResults r0 r1 s).res1 = r1 := rfl
@[simp] theorem setResults_busy (r0 r1 : U32) : (setResults r0 r1 s).busy = s.busy := rfl
@[simp] theorem setResults_phase (r0 r1 : U32) : (setResults r0 r1 s).phase = s.phase := rfl
@[simp] theorem setResults_activeMode (r0 r1 : U32) : (setResults r0 r1 s).activeMode = s.activeMode := rfl
@[simp] theorem setResults_curFps (r0 r1 : U32) : (setResults r0 r1 s).curFps = s.curFps := rfl
@[simp] theorem setResults_log (r0 r1 : U32) : (setResults r0 r1 s).log = s.log := rfl
@[simp] theorem setResults_rstHeld (r0 r1 : U32) : (setResults r0 r1 s).rstHeld = s.rstHeld := rfl
@[simp] theorem setResults_pwdnHeld (r0 r1 : U32) : (setResults r0 r1 s).pwdnHeld = s.pwdnHeld := rfl
@[simp] theorem setResults_attr (r0 r1 : U32) : (setResults r0 r1 s).attr = s.attr := rfl
@[simp] theorem setResults_tp (r0 r1 : U32) : (setResults r0 r1 s).tp = s.tp := rfl
@[simp] theorem setResults_cfg (r0 r1 : U32) : (setResults r0 r1 s).cfg = s.cfg := rfl
@[simp] theorem setResults_host (r0 r1 : U32) : (setResults r0 r1 s).host = s.host := rfl
@[simp] theorem setResults_readAnswers (r0 r1 : U32) : (setResults r0 r1 s).readAnswers = s.readAnswers := rfl
@[simp] theorem setResults_writeAnswers (r0 r1 : U32) : (setResults r0 r1 s).writeAnswers = s.writeAnswers := rfl
@[simp] theorem setResults_gpioAnswers (r0 r1 : U32) : (setResults r0 r1 s).gpioAnswers = s.gpioAnswers := rfl
@[simp] theorem setResults_reads (r0 r1 : U32) : (setResults r0 r1 s).reads = s.reads := rfl
@[simp] theorem setResults_writes (r0 r1 : U32) : (setResults r0 r1 s).writes = s.writes := rfl
@[simp] theorem setResults_gpios (r0 r1 : U32) : (setResults r0 r1 s).gpios = s.gpios := rfl
@[simp] theorem setResults_trace (r0 r1 : U32) : (setResults r0 r1 s).trace = s.trace := rfl

/-! ### `notify` -/

@[simp] theorem notify_op : (notify s).op = s.op := rfl
@[simp] theorem notify_arg1 : (notify s).arg1 = s.arg1 := rfl
@[simp] theorem notify_arg0 : (notify s).arg0 = s.arg0 := rfl
@[simp] theorem notify_status : (notify s).status = s.status := rfl
@[simp] theorem notify_res0 : (notify s).res0 = s.res0 := rfl
@[simp] theorem notify_res1 : (notify s).res1 = s.res1 := rfl
@[simp] theorem notify_busy : (notify s).busy = s.busy := rfl
@[simp] theorem notify_phase : (notify s).phase = s.phase := rfl
@[simp] theorem notify_activeMode : (notify s).activeMode = s.activeMode := rfl
@[simp] theorem notify_curFps : (notify s).curFps = s.curFps := rfl
@[simp] theorem notify_log : (notify s).log = s.log := rfl
@[simp] theorem notify_rstHeld : (notify s).rstHeld = s.rstHeld := rfl
@[simp] theorem notify_pwdnHeld : (notify s).pwdnHeld = s.pwdnHeld := rfl
@[simp] theorem notify_attr : (notify s).attr = s.attr := rfl
@[simp] theorem notify_tp : (notify s).tp = s.tp := rfl
@[simp] theorem notify_cfg : (notify s).cfg = s.cfg := rfl
@[simp] theorem notify_host : (notify s).host = s.host := rfl
@[simp] theorem notify_readAnswers : (notify s).readAnswers = s.readAnswers := rfl
@[simp] theorem notify_writeAnswers : (notify s).writeAnswers = s.writeAnswers := rfl
@[simp] theorem notify_gpioAnswers : (notify s).gpioAnswers = s.gpioAnswers := rfl
@[simp] theorem notify_reads : (notify s).reads = s.reads := rfl
@[simp] theorem notify_writes : (notify s).writes = s.writes := rfl
@[simp] theorem notify_gpios : (notify s).gpios = s.gpios := rfl
@[simp] theorem notify_trace : (notify s).trace = s.trace ++ [.notify (videoDescriptor s)] := rfl

/-! ### `startTable` -/

@[simp] theorem startTable_op (t : TableId) : (startTable t s).op = s.op := rfl
@[simp] theorem startTable_arg1 (t : TableId) : (startTable t s).arg1 = s.arg1 := rfl
@[simp] theorem startTable_arg0 (t : TableId) : (startTable t s).arg0 = s.arg0 := rfl
@[simp] theorem startTable_status (t : TableId) : (startTable t s).status = s.status := rfl
@[simp] theorem startTable_res0 (t : TableId) : (startTable t s).res0 = s.res0 := rfl
@[simp] theorem startTable_res1 (t : TableId) : (startTable t s).res1 = s.res1 := rfl
@[simp] theorem startTable_busy (t : TableId) : (startTable t s).busy = s.busy := rfl
@[simp] theorem startTable_phase (t : TableId) : (startTable t s).phase = s.phase := rfl
@[simp] theorem startTable_activeMode (t : TableId) : (startTable t s).activeMode = s.activeMode := rfl
@[simp] theorem startTable_curFps (t : TableId) : (startTable t s).curFps = s.curFps := rfl
@[simp] theorem startTable_log (t : TableId) : (startTable t s).log = s.log := rfl
@[simp] theorem startTable_rstHeld (t : TableId) : (startTable t s).rstHeld = s.rstHeld := rfl
@[simp] theorem startTable_pwdnHeld (t : TableId) : (startTable t s).pwdnHeld = s.pwdnHeld := rfl
@[simp] theorem startTable_attr (t : TableId) : (startTable t s).attr = s.attr := rfl
@[simp] theorem startTable_tp (t : TableId) : (startTable t s).tp = some { table := t, index := 0 } := rfl
@[simp] theorem startTable_cfg (t : TableId) : (startTable t s).cfg = s.cfg := rfl
@[simp] theorem startTable_host (t : TableId) : (startTable t s).host = s.host := rfl
@[simp] theorem startTable_readAnswers (t : TableId) : (startTable t s).readAnswers = s.readAnswers := rfl
@[simp] theorem startTable_writeAnswers (t : TableId) : (startTable t s).writeAnswers = s.writeAnswers := rfl
@[simp] theorem startTable_gpioAnswers (t : TableId) : (startTable t s).gpioAnswers = s.gpioAnswers := rfl
@[simp] theorem startTable_reads (t : TableId) : (startTable t s).reads = s.reads := rfl
@[simp] theorem startTable_writes (t : TableId) : (startTable t s).writes = s.writes := rfl
@[simp] theorem startTable_gpios (t : TableId) : (startTable t s).gpios = s.gpios := rfl
@[simp] theorem startTable_trace (t : TableId) : (startTable t s).trace = s.trace := rfl

/-! ### `advanceTable` -/

@[simp] theorem advanceTable_op : (advanceTable s).op = s.op := rfl
@[simp] theorem advanceTable_arg1 : (advanceTable s).arg1 = s.arg1 := rfl
@[simp] theorem advanceTable_arg0 : (advanceTable s).arg0 = s.arg0 := rfl
@[simp] theorem advanceTable_status : (advanceTable s).status = s.status := rfl
@[simp] theorem advanceTable_res0 : (advanceTable s).res0 = s.res0 := rfl
@[simp] theorem advanceTable_res1 : (advanceTable s).res1 = s.res1 := rfl
@[simp] theorem advanceTable_busy : (advanceTable s).busy = s.busy := rfl
@[simp] theorem advanceTable_phase : (advanceTable s).phase = s.phase := rfl
@[simp] theorem advanceTable_activeMode : (advanceTable s).activeMode = s.activeMode := rfl
@[simp] theorem advanceTable_curFps : (advanceTable s).curFps = s.curFps := rfl
@[simp] theorem advanceTable_log : (advanceTable s).log = s.log := rfl
@[simp] theorem advanceTable_rstHeld : (advanceTable s).rstHeld = s.rstHeld := rfl
@[simp] theorem advanceTable_pwdnHeld : (advanceTable s).pwdnHeld = s.pwdnHeld := rfl
@[simp] theorem advanceTable_attr : (advanceTable s).attr = s.attr := rfl
@[simp] theorem advanceTable_tp : (advanceTable s).tp = s.tp.map (fun p => { p with index := p.index + 1 }) := rfl
@[simp] theorem advanceTable_cfg : (advanceTable s).cfg = s.cfg := rfl
@[simp] theorem advanceTable_host : (advanceTable s).host = s.host := rfl
@[simp] theorem advanceTable_readAnswers : (advanceTable s).readAnswers = s.readAnswers := rfl
@[simp] theorem advanceTable_writeAnswers : (advanceTable s).writeAnswers = s.writeAnswers := rfl
@[simp] theorem advanceTable_gpioAnswers : (advanceTable s).gpioAnswers = s.gpioAnswers := rfl
@[simp] theorem advanceTable_reads : (advanceTable s).reads = s.reads := rfl
@[simp] theorem advanceTable_writes : (advanceTable s).writes = s.writes := rfl
@[simp] theorem advanceTable_gpios : (advanceTable s).gpios = s.gpios := rfl
@[simp] theorem advanceTable_trace : (advanceTable s).trace = s.trace := rfl

/-! ### `leaveTable` -/

@[simp] theorem leaveTable_op : (leaveTable s).op = s.op := rfl
@[simp] theorem leaveTable_arg1 : (leaveTable s).arg1 = s.arg1 := rfl
@[simp] theorem leaveTable_arg0 : (leaveTable s).arg0 = s.arg0 := rfl
@[simp] theorem leaveTable_status : (leaveTable s).status = s.status := rfl
@[simp] theorem leaveTable_res0 : (leaveTable s).res0 = s.res0 := rfl
@[simp] theorem leaveTable_res1 : (leaveTable s).res1 = s.res1 := rfl
@[simp] theorem leaveTable_busy : (leaveTable s).busy = s.busy := rfl
@[simp] theorem leaveTable_phase : (leaveTable s).phase = s.phase := rfl
@[simp] theorem leaveTable_activeMode : (leaveTable s).activeMode = s.activeMode := rfl
@[simp] theorem leaveTable_curFps : (leaveTable s).curFps = s.curFps := rfl
@[simp] theorem leaveTable_log : (leaveTable s).log = s.log := rfl
@[simp] theorem leaveTable_rstHeld : (leaveTable s).rstHeld = s.rstHeld := rfl
@[simp] theorem leaveTable_pwdnHeld : (leaveTable s).pwdnHeld = s.pwdnHeld := rfl
@[simp] theorem leaveTable_attr : (leaveTable s).attr = s.attr := rfl
@[simp] theorem leaveTable_tp : (leaveTable s).tp = none := rfl
@[simp] theorem leaveTable_cfg : (leaveTable s).cfg = s.cfg := rfl
@[simp] theorem leaveTable_host : (leaveTable s).host = s.host := rfl
@[simp] theorem leaveTable_readAnswers : (leaveTable s).readAnswers = s.readAnswers := rfl
@[simp] theorem leaveTable_writeAnswers : (leaveTable s).writeAnswers = s.writeAnswers := rfl
@[simp] theorem leaveTable_gpioAnswers : (leaveTable s).gpioAnswers = s.gpioAnswers := rfl
@[simp] theorem leaveTable_reads : (leaveTable s).reads = s.reads := rfl
@[simp] theorem leaveTable_writes : (leaveTable s).writes = s.writes := rfl
@[simp] theorem leaveTable_gpios : (leaveTable s).gpios = s.gpios := rfl
@[simp] theorem leaveTable_trace : (leaveTable s).trace = s.trace := rfl

/-! ### `accept` -/

@[simp] theorem accept_op (w : CommandWord) : (accept w s).op = opField w := rfl
@[simp] theorem accept_arg1 (w : CommandWord) : (accept w s).arg1 = arg1Field w := rfl
@[simp] theorem accept_arg0 (w : CommandWord) : (accept w s).arg0 = arg0Field w := rfl
@[simp] theorem accept_status (w : CommandWord) : (accept w s).status = s.status := rfl
@[simp] theorem accept_res0 (w : CommandWord) : (accept w s).res0 = s.res0 := rfl
@[simp] theorem accept_res1 (w : CommandWord) : (accept w s).res1 = s.res1 := rfl
@[simp] theorem accept_busy (w : CommandWord) : (accept w s).busy = true := rfl
@[simp] theorem accept_phase (w : CommandWord) : (accept w s).phase = s.phase := rfl
@[simp] theorem accept_activeMode (w : CommandWord) : (accept w s).activeMode = s.activeMode := rfl
@[simp] theorem accept_curFps (w : CommandWord) : (accept w s).curFps = s.curFps := rfl
@[simp] theorem accept_log (w : CommandWord) : (accept w s).log = s.log := rfl
@[simp] theorem accept_rstHeld (w : CommandWord) : (accept w s).rstHeld = s.rstHeld := rfl
@[simp] theorem accept_pwdnHeld (w : CommandWord) : (accept w s).pwdnHeld = s.pwdnHeld := rfl
@[simp] theorem accept_attr (w : CommandWord) : (accept w s).attr = s.attr := rfl
@[simp] theorem accept_tp (w : CommandWord) : (accept w s).tp = s.tp := rfl
@[simp] theorem accept_cfg (w : CommandWord) : (accept w s).cfg = s.cfg := rfl
@[simp] theorem accept_host (w : CommandWord) : (accept w s).host = s.host := rfl
@[simp] theorem accept_readAnswers (w : CommandWord) : (accept w s).readAnswers = s.readAnswers := rfl
@[simp] theorem accept_writeAnswers (w : CommandWord) : (accept w s).writeAnswers = s.writeAnswers := rfl
@[simp] theorem accept_gpioAnswers (w : CommandWord) : (accept w s).gpioAnswers = s.gpioAnswers := rfl
@[simp] theorem accept_reads (w : CommandWord) : (accept w s).reads = s.reads := rfl
@[simp] theorem accept_writes (w : CommandWord) : (accept w s).writes = s.writes := rfl
@[simp] theorem accept_gpios (w : CommandWord) : (accept w s).gpios = s.gpios := rfl
@[simp] theorem accept_trace (w : CommandWord) : (accept w s).trace = s.trace := rfl

end Sys2Proof.Machine
end

