-- ==== Sys2Proof/Laws/Ops.lean ====
section
/-! SUPPORT. What each shared operation does, said once: the field decoders and packers, the port primitives and their
answers, the end of a command, the table walker, the pin stages of `DETECT`, attach and detach. -/

namespace Sys2Proof

/-! ## Fields and packing -/

@[simp] theorem opField_packCommand (op arg1 : Byte) (arg0 : U32) : opField (packCommand op arg1 arg0) = op := by
  simp only [opField, packCommand]
  apply BitVec.eq_of_getLsbD_eq
  intro i hi
  simp only [BitVec.getLsbD_extractLsb', BitVec.getLsbD_append]
  have h1 : ¬(40 + i < 32) := by omega
  have h2 : 40 + i - 32 = 8 + i := by omega
  simp [hi, h1, h2]

@[simp] theorem arg1Field_packCommand (op arg1 : Byte) (arg0 : U32) :
    arg1Field (packCommand op arg1 arg0) = arg1 := by
  simp only [arg1Field, packCommand]
  apply BitVec.eq_of_getLsbD_eq
  intro i hi
  simp only [BitVec.getLsbD_extractLsb', BitVec.getLsbD_append]
  have h1 : ¬(32 + i < 32) := by omega
  have h2 : 32 + i - 32 = i := by omega
  simp [hi, h2]

@[simp] theorem arg0Field_packCommand (op arg1 : Byte) (arg0 : U32) :
    arg0Field (packCommand op arg1 arg0) = arg0 := by
  simp only [arg0Field, packCommand]
  apply BitVec.eq_of_getLsbD_eq
  intro i hi
  simp only [BitVec.getLsbD_extractLsb', BitVec.getLsbD_append]
  simp [hi]

/-- A command word is its three fields and nothing else. -/
@[simp] theorem packCommand_fields (w : CommandWord) : packCommand (opField w) (arg1Field w) (arg0Field w) = w := by
  simp only [opField, arg1Field, arg0Field, packCommand]
  apply BitVec.eq_of_getLsbD_eq
  intro i hi
  simp only [BitVec.getLsbD_append, BitVec.getLsbD_extractLsb']
  by_cases h1 : i < 32
  · simp [h1]
  · by_cases h2 : i - 32 < 8
    · have h3 : 32 + (i - 32) = i := by omega
      simp [h1, h2, h3]
    · have h3 : i - 32 - 8 < 8 := by omega
      have h4 : 40 + (i - 32 - 8) = i := by omega
      simp [h1, h2, h3, h4]

@[simp] theorem addressField_packEntry (a v : Byte) : addressField (packEntry a v) = a := by
  simp only [addressField, packEntry]
  apply BitVec.eq_of_getLsbD_eq
  intro i hi
  simp only [BitVec.getLsbD_extractLsb', BitVec.getLsbD_append]
  have h1 : ¬(8 + i < 8) := by omega
  have h2 : 8 + i - 8 = i := by omega
  simp [hi, h2]

@[simp] theorem valueField_packEntry (a v : Byte) : valueField (packEntry a v) = v := by
  simp only [valueField, packEntry]
  apply BitVec.eq_of_getLsbD_eq
  intro i hi
  simp only [BitVec.getLsbD_extractLsb', BitVec.getLsbD_append]
  simp [hi]

/-- A table entry is its two bytes and nothing else. -/
@[simp] theorem packEntry_fields (e : EntryWord) : packEntry (addressField e) (valueField e) = e := by
  simp only [addressField, valueField, packEntry]
  apply BitVec.eq_of_getLsbD_eq
  intro i hi
  simp only [BitVec.getLsbD_append, BitVec.getLsbD_extractLsb']
  by_cases h1 : i < 8
  · simp [h1]
  · have h2 : i - 8 < 8 := by omega
    have h3 : 8 + (i - 8) = i := by omega
    simp [h1, h2, h3]

/-! ## The command rows -/

/-- The rows of the opcode map: which opcode selects which command, `UNKNOWN` every opcode with no row (R96, R97). -/
theorem decodeFields_cases (op a : Byte) (v : U32) :
    (op = 0x01#8 ∧ decodeFields op a v = .detect a v) ∨
    (op = 0x02#8 ∧ decodeFields op a v = .init a v) ∨
    (op = 0x03#8 ∧ decodeFields op a v = .streamOn a v) ∨
    (op = 0x04#8 ∧ decodeFields op a v = .streamOff a v) ∨
    (op = 0x10#8 ∧ decodeFields op a v = .setIntegrationTime a v) ∨
    (op = 0x11#8 ∧ decodeFields op a v = .setAnalogGain a v) ∨
    (op = 0x12#8 ∧ decodeFields op a v = .setDigitalGain a v) ∨
    (op = 0x13#8 ∧ decodeFields op a v = .getBlackLevel a v) ∨
    (op = 0x14#8 ∧ decodeFields op a v = .resize a v) ∨
    (op = 0x15#8 ∧ decodeFields op a v = .prepareChange a v) ∨
    (op = 0x16#8 ∧ decodeFields op a v = .finishChange a v) ∨
    (op = 0x17#8 ∧ decodeFields op a v = .setFps a v) ∨
    (op = 0x20#8 ∧ decodeFields op a v = .gainEncode a v) ∨
    (op = 0x21#8 ∧ decodeFields op a v = .gainDecode a v) ∨
    (op = 0x22#8 ∧ decodeFields op a v = .dgainEncode a v) ∨
    (namedOpcodes.contains op = false ∧ decodeFields op a v = .unknown op a v) := by
  rw [decodeFields]
  by_cases h01 : op = 0x01#8
  · exact .inl ⟨h01, if_pos h01⟩
  rw [if_neg h01]
  by_cases h02 : op = 0x02#8
  · exact .inr (.inl ⟨h02, if_pos h02⟩)
  rw [if_neg h02]
  by_cases h03 : op = 0x03#8
  · iterate 2 right
    exact .inl ⟨h03, if_pos h03⟩
  rw [if_neg h03]
  by_cases h04 : op = 0x04#8
  · iterate 3 right
    exact .inl ⟨h04, if_pos h04⟩
  rw [if_neg h04]
  by_cases h10 : op = 0x10#8
  · iterate 4 right
    exact .inl ⟨h10, if_pos h10⟩
  rw [if_neg h10]
  by_cases h11 : op = 0x11#8
  · iterate 5 right
    exact .inl ⟨h11, if_pos h11⟩
  rw [if_neg h11]
  by_cases h12 : op = 0x12#8
  · iterate 6 right
    exact .inl ⟨h12, if_pos h12⟩
  rw [if_neg h12]
  by_cases h13 : op = 0x13#8
  · iterate 7 right
    exact .inl ⟨h13, if_pos h13⟩
  rw [if_neg h13]
  by_cases h14 : op = 0x14#8
  · iterate 8 right
    exact .inl ⟨h14, if_pos h14⟩
  rw [if_neg h14]
  by_cases h15 : op = 0x15#8
  · iterate 9 right
    exact .inl ⟨h15, if_pos h15⟩
  rw [if_neg h15]
  by_cases h16 : op = 0x16#8
  · iterate 10 right
    exact .inl ⟨h16, if_pos h16⟩
  rw [if_neg h16]
  by_cases h17 : op = 0x17#8
  · iterate 11 right
    exact .inl ⟨h17, if_pos h17⟩
  rw [if_neg h17]
  by_cases h20 : op = 0x20#8
  · iterate 12 right
    exact .inl ⟨h20, if_pos h20⟩
  rw [if_neg h20]
  by_cases h21 : op = 0x21#8
  · iterate 13 right
    exact .inl ⟨h21, if_pos h21⟩
  rw [if_neg h21]
  by_cases h22 : op = 0x22#8
  · iterate 14 right
    exact .inl ⟨h22, if_pos h22⟩
  rw [if_neg h22]
  iterate 15 right
  exact ⟨by simp [namedOpcodes, h01, h02, h03, h04, h10, h11, h12, h13, h14, h15, h16, h17, h20, h21, h22], rfl⟩

namespace Machine

/-- The decoder of command words answers commands. -/
theorem isCommand_decodeCommand (w : CommandWord) : isCommand (decodeCommand w) = true := by
  have h := decodeFields_cases (opField w) (arg1Field w) (arg0Field w)
  rw [decodeCommand]
  rcases h with h | h | h | h | h | h | h | h | h | h | h | h | h | h | h | h <;>
    · rw [h.2]; rfl

/-! ## Entry kinds -/

/-- The three kinds of entry, as the decoder and the walker see them. -/
theorem entryKind_cases (e : EntryWord) :
    (entryKind e = .stop ∧ addressField e = 0xFF#8 ∧ decodeEntry e = .te (valueField e)) ∨
    (entryKind e = .delay (valueField e) ∧ addressField e = 0xFE#8 ∧ decodeEntry e = .td (valueField e)) ∨
    (entryKind e = .write (addressField e) (valueField e) ∧ addressField e ≠ 0xFF#8 ∧ addressField e ≠ 0xFE#8 ∧
      decodeEntry e = .tw (addressField e) (valueField e)) := by
  unfold entryKind decodeEntry
  by_cases h1 : addressField e = 0xFF#8
  · exact .inl ⟨by simp [h1], h1, by simp [h1]⟩
  · by_cases h2 : addressField e = 0xFE#8
    · exact .inr (.inl ⟨by simp [h2], h2, by simp [h2]⟩)
    · exact .inr (.inr ⟨by simp [h1, h2], h1, h2, by simp [h1, h2]⟩)

@[simp] theorem tableHasEnd_nil : tableHasEnd [] = false := rfl

theorem tableHasEnd_cons (e : EntryWord) (t : List EntryWord) :
    tableHasEnd (e :: t) = (addressField e == 0xFF#8 || tableHasEnd t) := by
  simp [tableHasEnd]

/-! ## Answers are unchanged by everything but the access that draws them -/

theorem readReply_afterWrite (a v : Byte) (s : State) (k : Nat) (b : Byte) :
    readReply (afterWrite a v s) k b = readReply s k b := rfl

theorem writeReply_afterRead (a : Byte) (s : State) (k : Nat) (b v : Byte) :
    writeReply (afterRead a s) k b v = writeReply s k b v := rfl

theorem readReply_afterRead (a : Byte) (s : State) (k : Nat) (b : Byte) :
    readReply (afterRead a s) k b = readReply s (k + 1) b := by
  simp only [readReply, afterRead]
  rw [show s.reads + 1 + k = s.reads + (k + 1) by omega]

theorem writeReply_afterWrite (a v : Byte) (s : State) (k : Nat) (b w : Byte) :
    writeReply (afterWrite a v s) k b w = writeReply s (k + 1) b w := by
  simp only [writeReply, afterWrite]
  rw [show s.writes + 1 + k = s.writes + (k + 1) by omega]

theorem gpioReply_afterGpioRequest (pin : Nat) (s : State) (k p : Nat) :
    gpioReply (afterGpioRequest pin s) k p = gpioReply s (k + 1) p := by
  simp only [gpioReply, afterGpioRequest]
  rw [show s.gpios + 1 + k = s.gpios + (k + 1) by omega]

/-! ## The gate and the end of a command -/

/-- The gate lets a device command act. -/
theorem gated_of_detected {s : State} (h : detected s = true) (o : Host.Outcome State Fault Refusal) :
    gated s o = o := by simp [gated, h]

/-- The gate refuses a device command with `NotDetected`. -/
theorem gated_of_not_detected {s : State} (h : detected s = false) (o : Host.Outcome State Fault Refusal) :
    gated s o = .next (raise .notDetected s) := by simp [gated, h]

/-- What the gate reads of the state. -/
theorem detected_iff (s : State) : detected s = true ↔ s.phase ≠ .preDetect ∧ s.phase ≠ .detectFailed := by
  unfold detected; cases s.phase <;> simp

theorem detected_eq_false_iff (s : State) : detected s = false ↔ s.phase = .preDetect ∨ s.phase = .detectFailed := by
  unfold detected; cases s.phase <;> simp

/-! ## The table walker -/

/-- The next writes, after one. -/
theorem writesAccepted_cons (s : State) (a v : Byte) (ws : List (Byte × Byte)) :
    writesAccepted s ((a, v) :: ws) ↔
      writeReply s 0 a v = .ok ∧ writesAccepted (afterWrite a v s) ws := by
  constructor
  · intro h
    refine ⟨h 0 (by simp), fun j hj => ?_⟩
    rw [writeReply_afterWrite]
    exact h (j + 1) (by simpa using hj)
  · rintro ⟨h0, h1⟩ j hj
    cases j with
    | zero => exact h0
    | succ j =>
      have := h1 j (by simpa using hj)
      rw [writeReply_afterWrite] at this
      simpa using this

/-- Acceptance of writes reads the write answers and their counter only. -/
theorem writesAccepted_congr {s t : State} (h1 : t.writeAnswers = s.writeAnswers) (h2 : t.writes = s.writes)
    (ws : List (Byte × Byte)) : writesAccepted t ws ↔ writesAccepted s ws := by
  simp [writesAccepted, writeReply, h1, h2]

/-- `APPLY` returned `Ok`: the table has an end, every write was accepted, and nothing but `TP`, the draws and the trace
changed (R201, R207). -/
theorem applyFrom_ok {entries : List EntryWord} {s t : State} (h : applyFrom entries s = .ok t) :
    tableHasEnd entries = true ∧ writesAccepted s (tableWrites entries) ∧
      t = { s with
        tp := none, writes := s.writes + (tableWrites entries).length, trace := s.trace ++ tableEvents entries } := by
  induction entries generalizing s with
  | nil => simp [applyFrom] at h
  | cons e rest ih =>
    rcases entryKind_cases e with ⟨hk, ha, -⟩ | ⟨hk, ha, -⟩ | ⟨hk, ha, hb, -⟩
    · simp only [applyFrom, hk, ApplyResult.ok.injEq] at h
      subst h
      simp [tableHasEnd_cons, ha, tableWrites, tableEvents, hk, leaveTable, writesAccepted]
    · simp only [applyFrom, hk] at h
      obtain ⟨h1, h2, h3⟩ := ih h
      refine ⟨by simp [tableHasEnd_cons, h1], ?_, ?_⟩
      · simp only [tableWrites, hk]
        exact (writesAccepted_congr (s := s) rfl rfl _).1 h2
      · subst h3
        simp [tableWrites, tableEvents, hk, walkDelay, advanceTable, sleep, emit]
    · simp only [applyFrom, hk, walkWrite, memWrite] at h
      cases hr : writeReply s 0 (addressField e) (valueField e) with
      | err => simp [hr] at h
      | ok =>
        simp only [hr] at h
        obtain ⟨h1, h2, h3⟩ := ih h
        refine ⟨by simp [tableHasEnd_cons, h1], ?_, ?_⟩
        · simp only [tableWrites, hk, writesAccepted_cons]
          exact ⟨hr, (writesAccepted_congr rfl rfl _).1 h2⟩
        · subst h3
          simp [tableWrites, tableEvents, hk, advanceTable, afterWrite, hr]
          omega

/-- A table with an end whose writes the bus accepts is applied (R201, R207). -/
theorem applyFrom_accepted {entries : List EntryWord} {s : State} (h1 : tableHasEnd entries = true)
    (h2 : writesAccepted s (tableWrites entries)) :
    applyFrom entries s = .ok { s with
      tp := none, writes := s.writes + (tableWrites entries).length, trace := s.trace ++ tableEvents entries } := by
  induction entries generalizing s with
  | nil => simp at h1
  | cons e rest ih =>
    rcases entryKind_cases e with ⟨hk, ha, -⟩ | ⟨hk, ha, -⟩ | ⟨hk, ha, hb, -⟩
    · simp [applyFrom, hk, tableWrites, tableEvents, leaveTable]
    · have h3 : tableHasEnd rest = true := by simpa [tableHasEnd_cons, ha] using h1
      have h4 : writesAccepted (walkDelay (valueField e) s) (tableWrites rest) :=
        (writesAccepted_congr (s := s) rfl rfl _).2 (by simp only [tableWrites, hk] at h2; exact h2)
      simp only [applyFrom, hk, ih h3 h4]
      simp [hk, tableWrites, tableEvents, walkDelay, advanceTable, sleep, emit]
    · have h3 : tableHasEnd rest = true := by simpa [tableHasEnd_cons, ha] using h1
      simp only [tableWrites, hk, writesAccepted_cons] at h2
      have h4 : writesAccepted (advanceTable (afterWrite (addressField e) (valueField e) s)) (tableWrites rest) :=
        (writesAccepted_congr rfl rfl _).2 h2.2
      simp only [applyFrom, hk, walkWrite, memWrite, h2.1, ih h3 h4]
      simp [tableWrites, tableEvents, hk, advanceTable, afterWrite, h2.1]
      omega

/-- `APPLY` returned `Err`: a first refused write, everything before it done, nothing after it (R206). -/
theorem applyFrom_err {entries : List EntryWord} {s t : State} (h : applyFrom entries s = .err t) :
    ∃ (before after : List EntryWord) (a v : Byte),
      entries = before ++ packEntry a v :: after ∧ tableHasEnd before = false ∧ a ≠ 0xFF#8 ∧ a ≠ 0xFE#8 ∧
      writesAccepted s (tableWrites before) ∧ writeReply s (tableWrites before).length a v = .err ∧
      t = { s with
        tp := none, writes := s.writes + (tableWrites before).length + 1
        trace := s.trace ++ tableEvents before ++ [.wr a v .err] } := by
  induction entries generalizing s with
  | nil => simp [applyFrom] at h
  | cons e rest ih =>
    rcases entryKind_cases e with ⟨hk, ha, -⟩ | ⟨hk, ha, -⟩ | ⟨hk, ha, hb, -⟩
    · simp [applyFrom, hk] at h
    · simp only [applyFrom, hk] at h
      obtain ⟨b, f, a, v, h1, h2, h3, h4, h5, h6, h7⟩ := ih h
      refine ⟨e :: b, f, a, v, by simp [h1], by simp [tableHasEnd_cons, ha, h2], h3, h4, ?_, ?_, ?_⟩
      · simp only [tableWrites, hk]
        exact (writesAccepted_congr (s := s) rfl rfl _).1 h5
      · simp only [tableWrites, hk]
        exact h6
      · subst h7
        simp [tableWrites, tableEvents, hk, walkDelay, advanceTable, sleep, emit]
    · simp only [applyFrom, hk, walkWrite, memWrite] at h
      cases hr : writeReply s 0 (addressField e) (valueField e) with
      | err =>
        simp only [hr, ApplyResult.err.injEq] at h
        subst h
        exact ⟨[], rest, addressField e, valueField e, by simp, rfl, ha, hb, by simp [writesAccepted, tableWrites],
          by simpa [tableWrites] using hr, by simp [tableWrites, tableEvents, leaveTable, afterWrite, hr]⟩
      | ok =>
        simp only [hr] at h
        obtain ⟨b, f, a, v, h1, h2, h3, h4, h5, h6, h7⟩ := ih h
        refine ⟨e :: b, f, a, v, by simp [h1], by simp [tableHasEnd_cons, ha, h2], h3, h4, ?_, ?_, ?_⟩
        · simp only [tableWrites, hk, writesAccepted_cons]
          exact ⟨hr, (writesAccepted_congr rfl rfl _).1 h5⟩
        · simp only [tableWrites, hk, List.length_cons]
          rw [← writeReply_afterWrite (addressField e) (valueField e)]
          exact h6
        · subst h7
          simp [tableWrites, tableEvents, hk, advanceTable, afterWrite, hr]
          omega

/-- A first refused write aborts the table (R206). -/
theorem applyFrom_refused {before after : List EntryWord} {a v : Byte} {s : State}
    (h1 : tableHasEnd before = false) (h2 : a ≠ 0xFF#8) (h3 : a ≠ 0xFE#8)
    (h4 : writesAccepted s (tableWrites before)) (h5 : writeReply s (tableWrites before).length a v = .err) :
    applyFrom (before ++ packEntry a v :: after) s = .err { s with
      tp := none, writes := s.writes + (tableWrites before).length + 1
      trace := s.trace ++ tableEvents before ++ [.wr a v .err] } := by
  induction before generalizing s with
  | nil =>
    have hk : entryKind (packEntry a v) = .write a v := by simp [entryKind, h2, h3]
    simp only [tableWrites, List.length_nil] at h5
    simp [applyFrom, hk, walkWrite, memWrite, h5, leaveTable, afterWrite, tableWrites, tableEvents]
  | cons e rest ih =>
    simp only [tableHasEnd_cons, Bool.or_eq_false_iff, beq_eq_false_iff_ne, ne_eq] at h1
    rcases entryKind_cases e with ⟨hk, ha, -⟩ | ⟨hk, ha, -⟩ | ⟨hk, ha, hb, -⟩
    · exact absurd ha h1.1
    · have h6 : writesAccepted (walkDelay (valueField e) s) (tableWrites rest) :=
        (writesAccepted_congr (s := s) rfl rfl _).2 (by simp only [tableWrites, hk] at h4; exact h4)
      have h7 : writeReply (walkDelay (valueField e) s) (tableWrites rest).length a v = .err := by
        simp only [tableWrites, hk] at h5
        exact h5
      simp only [List.cons_append, applyFrom, hk, ih h1.2 h6 h7]
      simp [hk, tableWrites, tableEvents, walkDelay, advanceTable, sleep, emit]
    · simp only [tableWrites, hk, writesAccepted_cons] at h4
      simp only [tableWrites, hk, List.length_cons] at h5
      have h6 : writesAccepted (advanceTable (afterWrite (addressField e) (valueField e) s)) (tableWrites rest) :=
        (writesAccepted_congr rfl rfl _).2 h4.2
      have h7 : writeReply (advanceTable (afterWrite (addressField e) (valueField e) s)) (tableWrites rest).length a v
          = .err := by
        rw [← writeReply_afterWrite (addressField e) (valueField e)] at h5
        exact h5
      simp only [List.cons_append, applyFrom, hk, walkWrite, memWrite, h4.1, ih h1.2 h6 h7]
      simp [tableWrites, tableEvents, hk, advanceTable, afterWrite, h4.1]
      omega

/-- `APPLY` runs past the end only of a table that has none (R204). -/
theorem applyFrom_overrun {entries : List EntryWord} {s : State} (h : applyFrom entries s = .overrun) :
    tableHasEnd entries = false := by
  induction entries generalizing s with
  | nil => rfl
  | cons e rest ih =>
    rcases entryKind_cases e with ⟨hk, ha, -⟩ | ⟨hk, ha, -⟩ | ⟨hk, ha, hb, -⟩
    · simp [applyFrom, hk] at h
    · simp only [applyFrom, hk] at h
      simp [tableHasEnd_cons, ha, ih h]
    · simp only [applyFrom, hk, walkWrite, memWrite] at h
      cases hr : writeReply s 0 (addressField e) (valueField e) with
      | err => simp [hr] at h
      | ok =>
        simp only [hr] at h
        simp [tableHasEnd_cons, ha, ih h]

/-- The events of an accepted table are no responses and no GPIO events, and its `Wr` addresses are its writes. -/
theorem tableEvents_writes (entries : List EntryWord) :
    writeAddresses (tableEvents entries) = (tableWrites entries).map Prod.fst ∧
    readAddresses (tableEvents entries) = [] ∧
    (∀ e ∈ tableEvents entries, isResponse e = false ∧ isGpioEvent e = false) := by
  induction entries with
  | nil => simp [tableEvents, tableWrites, writeAddresses, readAddresses]
  | cons e rest ih =>
    rcases entryKind_cases e with ⟨hk, -⟩ | ⟨hk, -⟩ | ⟨hk, -⟩
    · simp [tableEvents, tableWrites, hk, writeAddresses, readAddresses]
    · simpa [tableEvents, tableWrites, hk, writeAddresses, readAddresses, isResponse, isGpioEvent] using ih
    · simpa [tableEvents, tableWrites, hk, writeAddresses, readAddresses, isResponse, isGpioEvent] using ih

/-- What a table-applying command can answer, said once: its table was applied and it ran on, or its first refused write
ended it with `BusFailure`, or CFG's table has no end (R201, R204, R206). -/
theorem withTable_cases (T : TableId) (onOk : State → State) (s : State) :
    (∃ entries, tableOf s.cfg T = some entries ∧ tableHasEnd entries = true ∧
      writesAccepted s (tableWrites entries) ∧
      withTable T onOk s = .next (onOk { s with
        tp := none, writes := s.writes + (tableWrites entries).length, trace := s.trace ++ tableEvents entries })) ∨
    (∃ (entries before after : List EntryWord) (a v : Byte), tableOf s.cfg T = some entries ∧
      entries = before ++ packEntry a v :: after ∧ tableHasEnd before = false ∧ a ≠ 0xFF#8 ∧ a ≠ 0xFE#8 ∧
      writesAccepted s (tableWrites before) ∧ writeReply s (tableWrites before).length a v = .err ∧
      withTable T onOk s = .next (raise .busFailure { s with
        tp := none, writes := s.writes + (tableWrites before).length + 1
        trace := s.trace ++ tableEvents before ++ [.wr a v .err] })) ∨
    ((∀ entries, tableOf s.cfg T = some entries → tableHasEnd entries = false) ∧
      withTable T onOk s = .refused .tableWithoutEnd) := by
  cases ht : tableOf s.cfg T with
  | none => exact .inr (.inr ⟨by simp, by simp [withTable, apply, ht]⟩)
  | some entries =>
    cases ha : applyFrom entries (startTable T s) with
    | ok t =>
      obtain ⟨h1, h2, h3⟩ := applyFrom_ok ha
      exact .inl ⟨entries, rfl, h1, (writesAccepted_congr rfl rfl _).1 h2, by simp [withTable, apply, ht, ha, h3]⟩
    | err t =>
      obtain ⟨b, f, a, v, h1, h2, h3, h4, h5, h6, h7⟩ := applyFrom_err ha
      exact .inr (.inl ⟨entries, b, f, a, v, rfl, h1, h2, h3, h4, (writesAccepted_congr rfl rfl _).1 h5, h6,
        by simp [withTable, apply, ht, ha, h7]⟩)
    | overrun =>
      refine .inr (.inr ⟨?_, by simp [withTable, apply, ht, ha]⟩)
      rintro _ ⟨⟩
      exact applyFrom_overrun ha

/-- A table with an end, every write accepted: the command runs on. -/
theorem withTable_accepted {T : TableId} {onOk : State → State} {s : State} {entries : List EntryWord}
    (h : tableOf s.cfg T = some entries) (h1 : tableHasEnd entries = true)
    (h2 : writesAccepted s (tableWrites entries)) :
    withTable T onOk s = .next (onOk { s with
      tp := none, writes := s.writes + (tableWrites entries).length, trace := s.trace ++ tableEvents entries }) := by
  have h3 := applyFrom_accepted (s := startTable T s) h1 ((writesAccepted_congr rfl rfl _).2 h2)
  simp [withTable, apply, h, h3]

/-- A first refused write: the command ends with `BusFailure`. -/
theorem withTable_refused {T : TableId} {onOk : State → State} {s : State} {before after : List EntryWord} {a v : Byte}
    (h : tableOf s.cfg T = some (before ++ packEntry a v :: after)) (h1 : tableHasEnd before = false)
    (h2 : a ≠ 0xFF#8) (h3 : a ≠ 0xFE#8) (h4 : writesAccepted s (tableWrites before))
    (h5 : writeReply s (tableWrites before).length a v = .err) :
    withTable T onOk s = .next (raise .busFailure { s with
      tp := none, writes := s.writes + (tableWrites before).length + 1
      trace := s.trace ++ tableEvents before ++ [.wr a v .err] }) := by
  have h6 := applyFrom_refused (s := startTable T s) (after := after) h1 h2 h3
    ((writesAccepted_congr rfl rfl _).2 h4) h5
  simp [withTable, apply, h, h6]

/-! ## The pin stages of DETECT -/

/-- A pulse appends its events and changes nothing else (R173). -/
theorem pulse_eq (pin : Nat) (seq : List (Level × Nat)) (s : State) :
    pulse pin seq s =
      { s with trace := s.trace ++ seq.flatMap (fun x => [Event.gpioSet pin x.1, Event.sleep x.2]) } := by
  induction seq generalizing s with
  | nil => simp [pulse]
  | cons x rest ih =>
    obtain ⟨l, ms⟩ := x
    simp [pulse, ih, sleep, gpioSet, emit]

/-- Both pin stages of `DETECT` together (R173, R174). -/
theorem pwdnPulse_resetPulse (s : State) : pwdnPulse (resetPulse s) = afterPins s := by
  cases hr : s.cfg.resetPin with
  | none =>
    cases hp : s.cfg.pwdnPin with
    | none => simp [resetPulse, pwdnPulse, afterPins, hr, hp, pinEvents, pinRequests]
    | some q =>
      cases ha : gpioReply s 0 q <;>
        simp [resetPulse, pwdnPulse, afterPins, hr, hp, pinEvents, pinRequests, pwdnAnswer, gpioRequest, ha,
          pulse_eq, setPwdnHeld, setLog, afterGpioRequest, pwdnGpioUnavailBit]
  | some p =>
    cases hb : gpioReply s 0 p <;>
      cases hp : s.cfg.pwdnPin with
      | none =>
        simp [resetPulse, pwdnPulse, afterPins, hr, hp, pinEvents, pinRequests, resetAnswer, gpioRequest, hb,
          pulse_eq, setRstHeld, setLog, afterGpioRequest, rstGpioUnavailBit, resetSeq]
      | some q =>
        have hc : ∀ (b : Bool) (l : Byte) (evs : List Event),
            gpioReply { s with rstHeld := b, log := l, gpios := s.gpios + 1, trace := evs } 0 q = gpioReply s 1 q := by
          intro b l evs
          simp [gpioReply]
        cases ha : gpioReply s 1 q <;>
          simp [resetPulse, pwdnPulse, afterPins, hr, hp, pinEvents, pinRequests, resetAnswer, pwdnAnswer, gpioRequest,
            hb, hc, ha, pulse_eq, setRstHeld, setPwdnHeld, setLog, afterGpioRequest, rstGpioUnavailBit,
            pwdnGpioUnavailBit, resetSeq]

/-! ## Attach and detach -/

/-- Releasing the handles: the events of the handles held, both bits clear, nothing else (R260, R262). -/
theorem releaseHandles_eq (s : State) :
    releaseHandles s = { s with
      rstHeld := false, pwdnHeld := false
      trace := s.trace ++ (if s.rstHeld then s.cfg.resetPin.toList.map Event.gpioRel else []) ++
        (if s.pwdnHeld then s.cfg.pwdnPin.toList.map Event.gpioRel else []) } := by
  obtain ⟨op, arg1, arg0, status, res0, res1, busy, phase, activeMode, curFps, log, rstHeld, pwdnHeld, attr, tp, cfg,
    host, ra, wa, ga, r, w, g, trace⟩ := s
  cases rstHeld <;> cases pwdnHeld <;> cases h1 : cfg.resetPin <;> cases h2 : cfg.pwdnPin <;>
    simp [releaseHandles, gpioRelease, setRstHeld, setPwdnHeld, emit, h1, h2]

end Machine

end Sys2Proof
end

