-- ==== Sys2Proof/Laws/PerInstr.lean ====
section
/-! SUPPORT. Per-instruction family: the word an instruction encodes to lies in its row of spec/opcode_table.json. -/

namespace Sys2Proof.Laws

/-- Width, match value and mask of an instruction's row of spec/opcode_table.json. -/
structure Row where
  width : Nat
  value : Nat
  mask : Nat
deriving DecidableEq, Repr

/-- The row of each constructor. -/
def row : Instr → Row
  | .detect _ _ => ⟨48, 0x010000000000, 0xFF0000000000⟩
  | .init _ _ => ⟨48, 0x020000000000, 0xFF0000000000⟩
  | .streamOn _ _ => ⟨48, 0x030000000000, 0xFF0000000000⟩
  | .streamOff _ _ => ⟨48, 0x040000000000, 0xFF0000000000⟩
  | .setIntegrationTime _ _ => ⟨48, 0x100000000000, 0xFF0000000000⟩
  | .setAnalogGain _ _ => ⟨48, 0x110000000000, 0xFF0000000000⟩
  | .setDigitalGain _ _ => ⟨48, 0x120000000000, 0xFF0000000000⟩
  | .getBlackLevel _ _ => ⟨48, 0x130000000000, 0xFF0000000000⟩
  | .resize _ _ => ⟨48, 0x140000000000, 0xFF0000000000⟩
  | .prepareChange _ _ => ⟨48, 0x150000000000, 0xFF0000000000⟩
  | .finishChange _ _ => ⟨48, 0x160000000000, 0xFF0000000000⟩
  | .setFps _ _ => ⟨48, 0x170000000000, 0xFF0000000000⟩
  | .gainEncode _ _ => ⟨48, 0x200000000000, 0xFF0000000000⟩
  | .gainDecode _ _ => ⟨48, 0x210000000000, 0xFF0000000000⟩
  | .dgainEncode _ _ => ⟨48, 0x220000000000, 0xFF0000000000⟩
  | .unknown _ _ _ => ⟨48, 0x000000000000, 0x000000000000⟩
  | .te _ => ⟨16, 0xFF00, 0xFF00⟩
  | .td _ => ⟨16, 0xFE00, 0xFF00⟩
  | .tw _ _ => ⟨16, 0x0000, 0x0000⟩

/-- A word as its width and its bits. -/
def bitsOf : Encoded → Nat × Nat
  | .command w => (48, w.toNat)
  | .entry e => (16, e.toNat)

/-- The word has the width of the row, and its bits under the row's mask are the row's match value. -/
def Row.holds (r : Row) (e : Encoded) : Prop := (bitsOf e).1 = r.width ∧ (bitsOf e).2 &&& r.mask = r.value

/-- Under the mask of a named command row only `OP` is left (R91). -/
theorem packCommand_masked (op a : Byte) (v : U32) :
    (packCommand op a v).toNat &&& 0xFF0000000000 = op.toNat <<< 40 := by
  have h : packCommand op a v &&& 0xFF0000000000#48 = op.setWidth 48 <<< 40 := by
    apply BitVec.eq_of_getLsbD_eq
    intro i hi
    simp only [packCommand, BitVec.getLsbD_and, BitVec.getLsbD_append, BitVec.getLsbD_shiftLeft,
      BitVec.getLsbD_setWidth]
    by_cases h1 : i < 40
    · have h2 : (0xFF0000000000#48).getLsbD i = false := by
        interval_cases i <;> decide
      simp [h1, h2]
    · have h2 : (0xFF0000000000#48).getLsbD i = true := by
        interval_cases i <;> decide
      have h3 : ¬ i < 32 := by omega
      have h4 : ¬ i - 32 < 8 := by omega
      have h5 : i - 40 < 48 := by omega
      simp [h1, h2, h3, h4, hi, h5, Nat.sub_sub]
  have h2 := congrArg BitVec.toNat h
  have h3 := op.isLt
  have h4 : op.toNat % 2 ^ 48 = op.toNat := Nat.mod_eq_of_lt (by omega)
  have h5 : op.toNat * 2 ^ 40 % 2 ^ 48 = op.toNat * 2 ^ 40 := Nat.mod_eq_of_lt (by omega)
  rw [BitVec.toNat_and, BitVec.toNat_shiftLeft, BitVec.toNat_setWidth, h4, Nat.shiftLeft_eq, h5] at h2
  rw [Nat.shiftLeft_eq]
  exact h2

/-- Under the mask of `TE` and `TD` only the address byte is left (R98). -/
theorem packEntry_masked (a v : Byte) : (packEntry a v).toNat &&& 0xFF00 = a.toNat <<< 8 := by
  have h : packEntry a v &&& 0xFF00#16 = a.setWidth 16 <<< 8 := by
    apply BitVec.eq_of_getLsbD_eq
    intro i hi
    simp only [packEntry, BitVec.getLsbD_and, BitVec.getLsbD_append, BitVec.getLsbD_shiftLeft, BitVec.getLsbD_setWidth]
    by_cases h1 : i < 8
    · have h2 : (0xFF00#16).getLsbD i = false := by interval_cases i <;> decide
      simp [h1, h2]
    · have h2 : (0xFF00#16).getLsbD i = true := by interval_cases i <;> decide
      have h5 : i - 8 < 16 := by omega
      simp [h1, h2, hi, h5]
  have h2 := congrArg BitVec.toNat h
  have h3 := a.isLt
  have h4 : a.toNat % 2 ^ 16 = a.toNat := Nat.mod_eq_of_lt (by omega)
  have h5 : a.toNat * 2 ^ 8 % 2 ^ 16 = a.toNat * 2 ^ 8 := Nat.mod_eq_of_lt (by omega)
  rw [BitVec.toNat_and, BitVec.toNat_shiftLeft, BitVec.toNat_setWidth, h4, Nat.shiftLeft_eq, h5] at h2
  rw [Nat.shiftLeft_eq]
  exact h2

/-- The encoded word lies in the instruction's row of the opcode table. -/
def EncodeMatchesTable.Statement (i : Instr) : Prop := (row i).holds (encode i)

theorem EncodeMatchesTable.detect (a : Byte) (v : U32) : EncodeMatchesTable.Statement (.detect a v) :=
  ⟨rfl, packCommand_masked 0x01#8 a v⟩

theorem EncodeMatchesTable.init (a : Byte) (v : U32) : EncodeMatchesTable.Statement (.init a v) :=
  ⟨rfl, packCommand_masked 0x02#8 a v⟩

theorem EncodeMatchesTable.streamOn (a : Byte) (v : U32) : EncodeMatchesTable.Statement (.streamOn a v) :=
  ⟨rfl, packCommand_masked 0x03#8 a v⟩

theorem EncodeMatchesTable.streamOff (a : Byte) (v : U32) : EncodeMatchesTable.Statement (.streamOff a v) :=
  ⟨rfl, packCommand_masked 0x04#8 a v⟩

theorem EncodeMatchesTable.setIntegrationTime (a : Byte) (v : U32) : EncodeMatchesTable.Statement (.setIntegrationTime a v) :=
  ⟨rfl, packCommand_masked 0x10#8 a v⟩

theorem EncodeMatchesTable.setAnalogGain (a : Byte) (v : U32) : EncodeMatchesTable.Statement (.setAnalogGain a v) :=
  ⟨rfl, packCommand_masked 0x11#8 a v⟩

theorem EncodeMatchesTable.setDigitalGain (a : Byte) (v : U32) : EncodeMatchesTable.Statement (.setDigitalGain a v) :=
  ⟨rfl, packCommand_masked 0x12#8 a v⟩

theorem EncodeMatchesTable.getBlackLevel (a : Byte) (v : U32) : EncodeMatchesTable.Statement (.getBlackLevel a v) :=
  ⟨rfl, packCommand_masked 0x13#8 a v⟩

theorem EncodeMatchesTable.resize (a : Byte) (v : U32) : EncodeMatchesTable.Statement (.resize a v) :=
  ⟨rfl, packCommand_masked 0x14#8 a v⟩

theorem EncodeMatchesTable.prepareChange (a : Byte) (v : U32) : EncodeMatchesTable.Statement (.prepareChange a v) :=
  ⟨rfl, packCommand_masked 0x15#8 a v⟩

theorem EncodeMatchesTable.finishChange (a : Byte) (v : U32) : EncodeMatchesTable.Statement (.finishChange a v) :=
  ⟨rfl, packCommand_masked 0x16#8 a v⟩

theorem EncodeMatchesTable.setFps (a : Byte) (v : U32) : EncodeMatchesTable.Statement (.setFps a v) :=
  ⟨rfl, packCommand_masked 0x17#8 a v⟩

theorem EncodeMatchesTable.gainEncode (a : Byte) (v : U32) : EncodeMatchesTable.Statement (.gainEncode a v) :=
  ⟨rfl, packCommand_masked 0x20#8 a v⟩

theorem EncodeMatchesTable.gainDecode (a : Byte) (v : U32) : EncodeMatchesTable.Statement (.gainDecode a v) :=
  ⟨rfl, packCommand_masked 0x21#8 a v⟩

theorem EncodeMatchesTable.dgainEncode (a : Byte) (v : U32) : EncodeMatchesTable.Statement (.dgainEncode a v) :=
  ⟨rfl, packCommand_masked 0x22#8 a v⟩

theorem EncodeMatchesTable.unknown (op a : Byte) (v : U32) : EncodeMatchesTable.Statement (.unknown op a v) :=
  ⟨rfl, Nat.and_zero _⟩

theorem EncodeMatchesTable.te (v : Byte) : EncodeMatchesTable.Statement (.te v) := ⟨rfl, packEntry_masked 0xFF#8 v⟩

theorem EncodeMatchesTable.td (v : Byte) : EncodeMatchesTable.Statement (.td v) := ⟨rfl, packEntry_masked 0xFE#8 v⟩

theorem EncodeMatchesTable.tw (a v : Byte) : EncodeMatchesTable.Statement (.tw a v) := ⟨rfl, Nat.and_zero _⟩

end Sys2Proof.Laws
end

