-- ==== Sys2Proof/Laws/Step.lean ====
section
/-! SUPPORT. What a step can do, said once, and what the end of a table can do (spec 10_state.md R20, R23; 43_register_table.md
R204). -/

namespace Sys2Proof.Machine

/-- A step that answers a next state ran the entry `TP` points at, waited, took a command, attached or detached. -/
theorem step_next_cases {s t : State} (h : step s = .next t) :
    (∃ (p : TablePtr) (entries : List EntryWord) (e : EntryWord), s.tp = some p ∧
      tableOf s.cfg p.table = some entries ∧ entries[p.index]? = some e ∧ exec (decodeEntry e) s = .next t) ∨
    (s.tp = none ∧ t = s) ∨
    (∃ (w : CommandWord) (rest : List HostInput), s.tp = none ∧ s.busy = false ∧ s.host = .command w :: rest ∧
      exec (decodeCommand w) (accept w { s with host := rest }) = .next t) ∨
    (∃ rest : List HostInput, s.tp = none ∧ s.busy = false ∧ s.host = .attach :: rest ∧ cfgOk s.cfg = true ∧
      t = loadAttachValues (releaseHandles { s with host := rest })) ∨
    (∃ rest : List HostInput, s.tp = none ∧ s.busy = false ∧ s.host = .detach :: rest ∧
      t = detach { s with host := rest }) := by
  unfold step at h
  split at h
  · rename_i p hp
    unfold fetchEntry at h
    split at h
    · cases h
    · rename_i e he
      split at he
      · cases he
      · rename_i entries hes
        exact .inl ⟨p, entries, e, hp, hes, he, h⟩
  · rename_i hp
    split at h
    · cases h
      exact .inr (.inl ⟨hp, rfl⟩)
    · rename_i hb
      have hb : s.busy = false := by simpa using hb
      split at h
      · cases h
        exact .inr (.inl ⟨hp, rfl⟩)
      · rename_i w rest hh
        exact .inr (.inr (.inl ⟨w, rest, hp, hb, hh, h⟩))
      · rename_i rest hh
        unfold attach at h
        split at h
        · rename_i hok
          cases h
          exact .inr (.inr (.inr (.inl ⟨rest, hp, hb, hh, hok, rfl⟩)))
        · cases h
      · rename_i rest hh
        cases h
        exact .inr (.inr (.inr (.inr ⟨rest, hp, hb, hh, rfl⟩)))

/-- The command in progress runs on from its table exactly where `OP` is one that calls `APPLY` (R200, R208). -/
theorem resumeCommand_cases {s t : State} (h : resumeCommand s = some t) :
    (∃ d, s.op = 0x02#8 ∧ modeOperand s.cfg s.arg0 = some d ∧ t = finishInit s.arg0 d s) ∨
    (∃ d, s.op = 0x14#8 ∧ modeOperand s.cfg s.arg0 = some d ∧ t = finishResize s.arg0 d s) ∨
    ((s.op = 0x03#8 ∨ s.op = 0x16#8) ∧ t = finishStreamOn s) ∨
    ((s.op = 0x04#8 ∨ s.op = 0x15#8) ∧ t = finishStreamOff s) := by
  unfold resumeCommand at h
  by_cases h1 : s.op = 0x02#8
  · rw [if_pos h1, Option.map_eq_some_iff] at h
    obtain ⟨d, hd, rfl⟩ := h
    exact .inl ⟨d, h1, hd, rfl⟩
  rw [if_neg h1] at h
  by_cases h2 : s.op = 0x14#8
  · rw [if_pos h2, Option.map_eq_some_iff] at h
    obtain ⟨d, hd, rfl⟩ := h
    exact .inr (.inl ⟨d, h2, hd, rfl⟩)
  rw [if_neg h2] at h
  by_cases h3 : s.op = 0x03#8
  · rw [if_pos h3] at h
    cases h
    exact .inr (.inr (.inl ⟨.inl h3, rfl⟩))
  rw [if_neg h3] at h
  by_cases h4 : s.op = 0x16#8
  · rw [if_pos h4] at h
    cases h
    exact .inr (.inr (.inl ⟨.inr h4, rfl⟩))
  rw [if_neg h4] at h
  by_cases h5 : s.op = 0x04#8
  · rw [if_pos h5] at h
    cases h
    exact .inr (.inr (.inr ⟨.inl h5, rfl⟩))
  rw [if_neg h5] at h
  by_cases h6 : s.op = 0x15#8
  · rw [if_pos h6] at h
    cases h
    exact .inr (.inr (.inr ⟨.inr h6, rfl⟩))
  rw [if_neg h6] at h
  cases h

end Sys2Proof.Machine
end

