-- ==== Sys2Proof/Laws/Timing.lean ====
section
/-! SUPPORT. The arithmetic of the Timing Engine and of split values in terms of natural numbers (spec 20_memory.md R63,
30_encoding.md R93, 41_timing_engine.md R152 to R155), and the VideoDescriptor after a change of mode or rate (10_state.md
R37). -/

namespace Sys2Proof.Machine

theorem numerator_eq (r : U32) : numerator r = r.toNat / 65536 := by
  have := r.isLt
  simp [numerator, BitVec.extractLsb'_toNat, Nat.shiftRight_eq_div_pow]
  omega

theorem denominator_eq (r : U32) : denominator r = r.toNat % 65536 := by
  simp [denominator, BitVec.extractLsb'_toNat]

/-- `scaled` is the floor of 256 times the rate; the two divisions lose nothing (R152). -/
theorem scaledFps_eq (r : U32) : scaledFps r = 256 * (r.toNat / 65536) / (r.toNat % 65536) := by
  simp only [scaledFps, numerator_eq, denominator_eq, Nat.shiftLeft_eq]
  generalize r.toNat / 65536 = n
  generalize r.toNat % 65536 = d
  rcases Nat.eq_zero_or_pos d with h | h
  · subst h; simp
  · have := Nat.div_add_mod n d
    have h2 : 256 * n = (n % d) * 256 + d * (n / d * 256) := by
      calc 256 * n = 256 * (d * (n / d) + n % d) := by rw [this]
        _ = _ := by ring
    rw [h2, Nat.add_mul_div_left _ _ h]
    norm_num
    omega

/-- Acceptance of a rate, both ends of the interval included (R151, R153). -/
theorem rateAccepted_iff (c : Cfg) (r : U32) :
    rateAccepted c r = true ↔
      r.toNat % 65536 ≠ 0 ∧ 256 * c.minFps ≤ 256 * (r.toNat / 65536) / (r.toNat % 65536) ∧
        256 * (r.toNat / 65536) / (r.toNat % 65536) ≤ 256 * c.maxFps := by
  simp [rateAccepted, denominator_eq, scaledFps_eq, Nat.shiftLeft_eq, Nat.mul_comm, and_assoc]

theorem horizontalTotal_eq (hi lo : Byte) : horizontalTotal hi lo = 2 * (256 * hi.toNat + lo.toNat) := by
  have h : (hi ++ lo : BitVec (8 + 8)).toNat = 2 ^ 8 * hi.toNat + lo.toNat := by
    rw [BitVec.toNat_append, Nat.shiftLeft_eq, Nat.mul_comm]
    exact (Nat.two_pow_add_eq_or_of_lt lo.isLt hi.toNat).symm
  simp only [horizontalTotal, h, Nat.shiftLeft_eq]
  omega

theorem lowByte_toNat (v : U32) : (lowByte v).toNat = v.toNat % 256 := by
  simp [lowByte, BitVec.extractLsb'_toNat]

theorem lowByte_ofNat (n : Nat) : lowByte (BitVec.ofNat 32 n) = BitVec.ofNat 8 n := by
  apply BitVec.eq_of_toNat_eq
  simp [lowByte, BitVec.extractLsb'_toNat]

theorem highByte_ofNat (n : Nat) : highByte (BitVec.ofNat 32 n) = BitVec.ofNat 8 (n / 256) := by
  apply BitVec.eq_of_toNat_eq
  simp [highByte, BitVec.extractLsb'_toNat, Nat.shiftRight_eq_div_pow]
  omega

/-- The VideoDescriptor reads `ACTIVE_MODE`, `CUR_FPS` and CFG only (R37). -/
theorem videoDescriptor_congr {s t : State} (h1 : t.activeMode = s.activeMode) (h2 : t.cfg = s.cfg) :
    videoDescriptor t = { videoDescriptor s with fps := t.curFps } := by
  simp only [videoDescriptor, activeDescriptor, h1, h2]
  cases (if s.activeMode = 0xFF#8 then none else s.cfg.modes[s.activeMode.toNat]?) <;> rfl

/-- The low byte of a mode id below `N_MODES` is the id, and never the code of `NONE` (R26, R95). -/
theorem modeId_byte {k : U32} {c : Cfg} {d : ModeDescriptor} (hl : c.modes.length ≤ 255)
    (h : c.modes[k.toNat]? = some d) :
    (k.setWidth 8 : Byte).toNat = k.toNat ∧ (k.setWidth 8 : Byte) ≠ 0xFF#8 ∧ k.toNat < c.modes.length := by
  have hk := (List.getElem?_eq_some_iff.1 h).1
  have h4 : (k.setWidth 8 : Byte).toNat = k.toNat := by simp; omega
  refine ⟨h4, ?_, hk⟩
  intro hc
  have := congrArg BitVec.toNat hc
  rw [h4] at this
  simp at this
  omega

/-- The VideoDescriptor once a mode and its rate are recorded (R37, R176, R177). -/
theorem videoDescriptor_recorded {s : State} {k : U32} {d : ModeDescriptor} (h0 : s.cfg.modes.length ≤ 255)
    (h : s.cfg.modes[k.toNat]? = some d) (h2 : s.activeMode = k.setWidth 8) (h3 : s.curFps = d.frameRate) :
    videoDescriptor s = ⟨k.setWidth 8, d.width, d.height, d.pixelFormatCode, d.colorSpace, d.frameRate⟩ := by
  obtain ⟨h4, h5, -⟩ := modeId_byte h0 h
  simp only [videoDescriptor, activeDescriptor, h2, h5, if_false, h4, h, h3]

end Sys2Proof.Machine
end

