-- ==== Sys2Proof/Tests/Slice0.lean ====
section
/-! SUPPORT. Tests of the model and witnesses for the statements. Expected results come from the spec's own vectors (95_test_vectors.md,
cited by their ids) under REFCFG; states U, C0 and S0 are those of its section 1.2, without the trace that led there. Each
`witness_<Name>` shows values that meet all hypotheses of the obligation of that name. -/

namespace Sys2Proof.Tests

open Sys2Proof Sys2Proof.Machine

/-! ## Helpers -/

/-- State U: detected, no mode, the reset handle held. -/
def stU : State := { State.reset with phase := .uninitialized, rstHeld := true }

/-- State C0: `Configured`, mode 0 at its own rate. -/
def stC0 : State := { stU with phase := .configured, activeMode := 0x00#8, curFps := 0x00190001#32 }

/-- State S0: state C0 streaming. -/
def stS0 : State := { stC0 with phase := .streaming }

/-- After a failed detection. -/
def stF : State := { stU with phase := .detectFailed }

/-- The environment answers the next reads and writes so. -/
def answering (s : State) (rs : List ReadReply) (ws : List Reply) : State :=
  { s with readAnswers := rs, writeAnswers := ws }

/-- State C0 with this stream-on table. -/
def withStreamOn (t : List EntryWord) (ws : List Reply) : State :=
  answering { stC0 with cfg := { refCfg with streamOnTable := t } } [] ws

/-- State C0 in the middle of `STREAM_ON`, at entry `i` of its table. -/
def walking (i : Nat) : State :=
  answering { stC0 with op := 0x03#8, busy := true, tp := some { table := .streamOn, index := i } } [] [.ok, .ok]

/-- One command word through the command port. -/
def port (w : Nat) (s : State) : Host.Outcome State Fault Refusal := step (s.withFetchWord 48 w)

/-- The answer is a next state. -/
def isNext : Host.Outcome State Fault Refusal → Bool
  | .next _ => true
  | .fault _ | .refused _ => false

/-- What a test looks at: the trace and the phase. -/
def seen : Host.Outcome State Fault Refusal → Option (List Event × Phase)
  | .next t => some (t.trace, t.phase)
  | .fault _ | .refused _ => none

/-- The state answered, or the given one. -/
def stateOr (d : State) : Host.Outcome State Fault Refusal → State
  | .next t => t
  | .fault _ | .refused _ => d

/-! ## WellFormed smoke -/

theorem test_tw_at_delay_address_ill_formed : (Instr.tw 0xFE#8 0x05#8).wellFormed = false := by decide
theorem test_tw_at_end_address_ill_formed : (Instr.tw 0xFF#8 0x00#8).wellFormed = false := by decide
theorem test_tw_below_reserved_well_formed : (Instr.tw 0xFD#8 0x00#8).wellFormed = true := by decide
theorem test_unknown_named_opcode_ill_formed :
    (namedOpcodes.map (fun op => (Instr.unknown op 0#8 0#32).wellFormed)).any id = false := by decide

/-! ## Decoding: the words of 95_test_vectors.md and of 30_encoding.md R91, R96, R98, R99, written out -/

theorem test_decode_detect : decodeTableWord 48 0x010000000000 = some (.detect 0x00#8 0#32) := by decide
theorem test_decode_init : decodeTableWord 48 0x020000000001 = some (.init 0x00#8 1#32) := by decide
theorem test_decode_streamOn : decodeTableWord 48 0x030000000000 = some (.streamOn 0x00#8 0#32) := by decide
theorem test_decode_streamOff : decodeTableWord 48 0x040000000000 = some (.streamOff 0x00#8 0#32) := by decide
theorem test_decode_setIntegrationTime :
    decodeTableWord 48 0x10000000032B = some (.setIntegrationTime 0x00#8 811#32) := by decide
theorem test_decode_setAnalogGain :
    decodeTableWord 48 0x110800000180 = some (.setAnalogGain 0x08#8 0x00000180#32) := by decide
theorem test_decode_setDigitalGain :
    decodeTableWord 48 0x120000012345 = some (.setDigitalGain 0x00#8 0x00012345#32) := by decide
theorem test_decode_getBlackLevel : decodeTableWord 48 0x13AB00000007 = some (.getBlackLevel 0xAB#8 7#32) := by decide
theorem test_decode_resize : decodeTableWord 48 0x140000000002 = some (.resize 0x00#8 2#32) := by decide
theorem test_decode_prepareChange : decodeTableWord 48 0x150000000000 = some (.prepareChange 0x00#8 0#32) := by decide
theorem test_decode_finishChange : decodeTableWord 48 0x160000000000 = some (.finishChange 0x00#8 0#32) := by decide
theorem test_decode_setFps : decodeTableWord 48 0x1700753003E9 = some (.setFps 0x00#8 0x753003E9#32) := by decide
theorem test_decode_gainEncode : decodeTableWord 48 0x201D00018000 = some (.gainEncode 29#8 0x00018000#32) := by decide
theorem test_decode_gainDecode : decodeTableWord 48 0x2110123456A5 = some (.gainDecode 16#8 0x123456A5#32) := by decide
theorem test_decode_dgainEncode : decodeTableWord 48 0x221000012345 = some (.dgainEncode 16#8 0x00012345#32) := by decide
theorem test_decode_unknown : decodeTableWord 48 0xFF0200000001 = some (.unknown 0xFF#8 0x02#8 1#32) := by decide
theorem test_decode_te : decodeTableWord 16 0xFF77 = some (.te 0x77#8) := by decide
theorem test_decode_td : decodeTableWord 16 0xFE05 = some (.td 0x05#8) := by decide
theorem test_decode_tw : decodeTableWord 16 0xFD01 = some (.tw 0xFD#8 0x01#8) := by decide
theorem test_no_format_of_32_bits : wordOf 32 0 = .error (.noFormatOfWidth 32) := by decide
theorem test_entries_of_bytes :
    entriesOfBytes [0x12#8, 0x40#8, 0xFE#8, 0x05#8, 0xFF#8] = [0x1240#16, 0xFE05#16] := by decide

/-! ## Gain Codec (section 2.2) -/

/-- G10. -/
theorem test_gainEncode_example : (stateOr stU (port 0x201000018000 State.reset)).trace =
    [.resp 0#32 0x0001759D#32 0x16#32] := by decide
/-- G36 to G39 side: the shift clamp (G38). -/
theorem test_gainEncode_shift_clamp : (stateOr stU (port 0x20C800018000 stC0)).trace = [.resp 0#32 0#32 0#32] := by decide
/-- G43: the largest result. -/
theorem test_gainDecode_largest : (stateOr stU (port 0x211C000000FF State.reset)).trace =
    [.resp 0#32 0xFF446359#32 0xF8000000#32] := by decide
/-- G46: only the low byte is read. -/
theorem test_gainDecode_low_byte : (stateOr stU (port 0x2110123456A5 State.reset)).trace =
    [.resp 0#32 0x000A646E#32 0x05400000#32] := by decide
/-- No clamp. -/
theorem test_dgainEncode_unclamped : (stateOr stU (port 0x2200FFFFFFFF State.reset)).trace =
    [.resp 0#32 0xFFFFFFFF#32 0#32] := by decide
/-- G51: results loaded although the write failed. -/
theorem test_setAnalogGain_failed_write : seen (port 0x110000028000 (answering stC0 [] [.err])) =
    some ([.wr 0x00#8 0x26#8 .err, .resp 0xFFFFFFFF#32 0x0002759D#32 0x26#32], .configured) := by decide
/-- G55: `ARG1` ignored. -/
theorem test_setAnalogGain_ignores_arg1 : seen (port 0x110800000180 (answering stC0 [] [.ok])) =
    some ([.wr 0x00#8 0x00#8 .ok, .resp 0#32 0#32 0#32], .configured) := by decide
theorem test_setDigitalGain_noop : seen (port 0x120000012345 stF) = some ([.resp 0#32 0#32 0#32], .detectFailed) := by
  decide

/-! ## Timing Engine (section 2.3) -/

/-- T30: the low bits of the control register are written back as read. -/
theorem test_setFps_commit :
    seen (port 0x1700001E0001 (answering stC0 [.ok 0x24#8, .ok 0x04#8, .ok 0x15#8] [.ok, .ok, .ok])) =
    some ([.rd 0x20#8 (.ok 0x24#8), .rd 0x21#8 (.ok 0x04#8), .rd 0x1F#8 (.ok 0x15#8), .wr 0x1F#8 0x95#8 .ok,
      .wr 0x22#8 0xA7#8 .ok, .wr 0x23#8 0x02#8 .ok,
      .notify ⟨0x00#8, 1280#32, 720#32, 1#32, 1#32, 0x001E0001#32⟩, .resp 0#32 0#32 0#32], .configured) := by decide
/-- T36: the bounds wrap below a vertical total of 4. -/
theorem test_setFps_bounds_wrap :
    (stateOr stU (port 0x1700001E0001
      (answering { stC0 with cfg := { refCfg with pclk := 100000 } } [.ok 0xFF#8, .ok 0xFF#8, .ok 0#8] [.ok, .ok, .ok]))).attr =
    { stC0.attr with totalHeight := 0#32, maxIntegrationTime := 0xFFFFFFFC#32, maxIntegrationTimeNative := 0xFFFFFFFC#32,
                     integrationTimeLimit := 0xFFFFFFFC#32 } := by decide
/-- T42: bits 31:16 dropped, low byte first. -/
theorem test_setIntegrationTime_low_half : seen (port 0x100000012345 (answering stC0 [] [.ok, .ok])) =
    some ([.wr 0x01#8 0x45#8 .ok, .wr 0x02#8 0x23#8 .ok, .resp 0#32 0#32 0#32], .configured) := by decide
/-- T44: the second write is still attempted. -/
theorem test_setIntegrationTime_attempts_both : seen (port 0x10000000032B (answering stC0 [] [.err, .ok])) =
    some ([.wr 0x01#8 0x2B#8 .err, .wr 0x02#8 0x03#8 .ok, .resp 0xFFFFFFFF#32 0#32 0#32], .configured) := by decide

/-! ## Mode/State Controller (section 2.4) -/

/-- M1. -/
theorem test_detect_success :
    seen (port 0x010000000000 { answering State.reset [.ok 0xA5#8, .ok 0x5A#8] [] with gpioAnswers := [.ok] }) =
    some ([.gpioReq 18 .ok, .gpioSet 18 .high, .sleep 5, .gpioSet 18 .low, .sleep 10, .gpioSet 18 .high, .sleep 20,
      .rd 0x0A#8 (.ok 0xA5#8), .rd 0x0B#8 (.ok 0x5A#8), .resp 0#32 0#32 0#32], .uninitialized) := by decide
/-- M6: a refused pin is logged and skipped. -/
theorem test_detect_pin_unavailable :
    (fun t : State => (t.log, t.rstHeld, t.phase, t.trace.length))
      (stateOr stF (port 0x010000000000
        { answering State.reset [.ok 0xA5#8, .ok 0x5A#8] [] with gpioAnswers := [.err] })) =
    (0x02#8, false, .uninitialized, 4) := by decide
/-- M9. -/
theorem test_init_mode_0 : seen (port 0x020000000000 (answering stU [] [.ok, .ok, .ok])) =
    some ([.wr 0x12#8 0x40#8 .ok, .sleep 5, .wr 0x20#8 0x24#8 .ok, .wr 0x21#8 0x04#8 .ok,
      .notify ⟨0x00#8, 1280#32, 720#32, 1#32, 1#32, 0x00190001#32⟩, .resp 0#32 0#32 0#32], .configured) := by decide
/-- M20: the mode id is a u32. -/
theorem test_init_out_of_range : seen (port 0x0200FFFFFFFF stU) =
    some ([.resp 0xFFFFFFFD#32 0#32 0#32], .uninitialized) := by decide
/-- M10: no second table. -/
theorem test_resize_active : seen (port 0x140000000000 stC0) =
    some ([.notify ⟨0x00#8, 1280#32, 720#32, 1#32, 1#32, 0x00190001#32⟩, .resp 0#32 0#32 0#32], .configured) := by decide
/-- M28: `Streaming` is kept. -/
theorem test_resize_streaming : seen (port 0x140000000001 (answering stS0 [] [.ok])) =
    some ([.wr 0x12#8 0x41#8 .ok, .notify ⟨0x01#8, 640#32, 480#32, 1#32, 1#32, 0x001E0001#32⟩, .resp 0#32 0#32 0#32],
      .streaming) := by decide
/-- M16. -/
theorem test_streamOn_configured : seen (port 0x030000000000 (answering stC0 [] [.ok])) =
    some ([.wr 0x12#8 0x00#8 .ok, .resp 0#32 0#32 0#32], .streaming) := by decide
/-- M13. -/
theorem test_streamOn_uninitialized : seen (port 0x030000000000 (answering stU [] [.ok])) =
    some ([.wr 0x12#8 0x00#8 .ok, .resp 0#32 0#32 0#32], .uninitialized) := by decide
/-- M18. -/
theorem test_streamOff_streaming : seen (port 0x040000000000 (answering stS0 [] [.ok])) =
    some ([.wr 0x12#8 0x40#8 .ok, .resp 0#32 0#32 0#32], .configured) := by decide
/-- M35. -/
theorem test_prepareChange_failed : seen (port 0x150000000000 (answering stS0 [] [.err])) =
    some ([.wr 0x12#8 0x40#8 .err, .resp 0xFFFFFFFF#32 0#32 0#32], .streaming) := by decide
/-- M33. -/
theorem test_finishChange_configured : seen (port 0x160000000000 (answering stC0 [] [.ok])) =
    some ([.wr 0x12#8 0x00#8 .ok, .resp 0#32 0#32 0#32], .streaming) := by decide
/-- M41. -/
theorem test_getBlackLevel_not_logged : (stateOr stF (port 0x13AB00000007 State.reset)).log = 0x00#8 := by decide
/-- M42. -/
theorem test_unknown_logged : (stateOr stF (port 0x7F00DEADBEEF State.reset)).log = 0x01#8 := by decide
/-- M36. -/
theorem test_gate : seen (port 0x030000000000 State.reset) =
    some ([.resp 0xFFFFFFFE#32 0#32 0#32], .preDetect) := by decide

/-! ## Table walker (section 2.5), attach and detach (section 2.6) -/

/-- W6: the first `TE` ends the table. -/
theorem test_table_first_end :
    seen (port 0x030000000000 (withStreamOn [0x1001#16, 0xFF77#16, 0x1102#16, 0xFF00#16] [.ok])) =
    some ([.wr 0x10#8 0x01#8 .ok, .resp 0#32 0#32 0#32], .streaming) := by decide
/-- W7: aborted mid-sequence. -/
theorem test_table_abort :
    seen (port 0x030000000000 (withStreamOn [0x1001#16, 0x1102#16, 0xFE05#16, 0x1203#16, 0xFF00#16] [.ok, .err])) =
    some ([.wr 0x10#8 0x01#8 .ok, .wr 0x11#8 0x02#8 .err, .resp 0xFFFFFFFF#32 0#32 0#32], .configured) := by decide
theorem test_tw_entry : seen (step (walking 0)) = some ([.wr 0x12#8 0x00#8 .ok], .configured) := by decide
theorem test_td_entry : seen (step (stC0.withFetchWord 16 0xFEFF)) = some ([.sleep 255], .configured) := by decide
theorem test_te_entry : seen (step (walking 1)) = some ([.resp 0#32 0#32 0#32], .streaming) := by decide
/-- A2. -/
theorem test_detach : (fun t : State => (t.trace, t.phase, t.activeMode, t.curFps, t.rstHeld))
    (stateOr stF (step { stS0 with host := [.detach] })) = ([.gpioRel 18], .preDetect, 0xFF#8, 0#32, false) := by decide
/-- A6, A1. -/
theorem test_attach : stateOr stF (step { stS0 with host := [.attach] }) =
    { State.reset with trace := [.gpioRel 18] } := by decide
/-- U5: a CFG with a table that has no end is refused. -/
theorem test_attach_refused :
    step { State.reset with host := [.attach], cfg := { refCfg with streamOnTable := [0x1200#16] } } =
      .refused .illFormedCfg := rfl

/-! ## Witnesses -/

theorem witness_DecodeEncodeRoundTrip :
    (Instr.unknown 0x23#8 0xFF#8 0xFFFFFFFF#32).wellFormed = true ∧ (Instr.tw 0xFD#8 0xFF#8).wellFormed = true := by decide

/-- A word for each named opcode, and one at each end of the gaps between them. -/
theorem witness_OpcodeSelectsCommand :
    [0x010000000000#48, 0x020000000000#48, 0x030000000000#48, 0x040000000000#48, 0x100000000000#48, 0x110000000000#48,
     0x120000000000#48, 0x130000000000#48, 0x140000000000#48, 0x150000000000#48, 0x160000000000#48, 0x170000000000#48,
     0x200000000000#48, 0x210000000000#48, 0x22FFFFFFFFFF#48].map (fun w : CommandWord => w.toNat / 2 ^ 40) =
      [0x01, 0x02, 0x03, 0x04, 0x10, 0x11, 0x12, 0x13, 0x14, 0x15, 0x16, 0x17, 0x20, 0x21, 0x22] ∧
    [0x00FFFFFFFFFF#48, 0x050000000000#48, 0x0FFFFFFFFFFF#48, 0x180000000000#48, 0x1FFFFFFFFFFF#48, 0x230000000000#48].map
        (fun w : CommandWord => w.toNat / 2 ^ 40) = [0, 0x05, 0x0F, 0x18, 0x1F, 0x23] := by decide

theorem witness_AddressByteSelectsEntry :
    (0xFF00#16).toNat / 256 = 0xFF ∧ (0xFEFF#16).toNat / 256 = 0xFE ∧ (0xFDFF#16).toNat / 256 ≤ 0xFD := by decide

theorem witness_UnlistedOpcodesAreLoggedNoOps :
    [0x00#8, 0x05#8, 0x0F#8, 0x18#8, 0x1F#8, 0x23#8, 0xFF#8].all (fun op =>
      decide ((opField (packCommand op 0x00#8 0#32)).toNat = 0 ∨
        (0x05 ≤ (opField (packCommand op 0x00#8 0#32)).toNat ∧ (opField (packCommand op 0x00#8 0#32)).toNat ≤ 0x0F) ∨
        (0x18 ≤ (opField (packCommand op 0x00#8 0#32)).toNat ∧ (opField (packCommand op 0x00#8 0#32)).toNat ≤ 0x1F) ∨
        0x23 ≤ (opField (packCommand op 0x00#8 0#32)).toNat)) = true := by decide

theorem witness_StepRunsDecodedInstruction_command :
    (stC0.withFetchWord 48 0x030000000000).tp = none ∧ (stC0.withFetchWord 48 0x030000000000).busy = false ∧
      (stC0.withFetchWord 48 0x030000000000).host = .command 0x030000000000#48 :: [] := by decide

theorem witness_StepRunsDecodedInstruction_entry :
    (walking 1).tp = some { table := .streamOn, index := 1 } ∧
      tableOf (walking 1).cfg .streamOn = some [0x1200#16, 0xFF00#16] ∧
      ([0x1200#16, 0xFF00#16] : List EntryWord)[1]? = some 0xFF00#16 := by decide

theorem witness_StepWaitsWithoutInput :
    (State.reset.tp = none ∧ State.reset.host = []) ∧
      ({ stC0 with busy := true, host := [.attach] } : State).tp = none ∧
      ({ stC0 with busy := true, host := [.attach] } : State).busy = true := by decide

/-- `MAX_AGAIN_ISP` of REFCFG, 0x3F446, is the floored logarithm of `MAX_AGAIN_NATIVE` (R7). -/
theorem test_refCfg_max_again : 0x0003F446 = log2Floor 16 0x000F8000 16 :=
  (log2Floor_of_bounds (gfp := 16) (l := 0x000F8000) (s := 16) (k := 1307718) (by decide) (by decide +kernel)
    (by decide +kernel)).symm

theorem refCfg_wellFormed : WellFormedCfg refCfg where
  gfp_range := by decide
  shift_range := by decide
  max_again_native := ⟨3, 15, by decide⟩
  max_again_isp := test_refCfg_max_again
  pclk_range := by decide
  fps_range := by decide
  modes_range := by decide
  mode_tables := by decide
  stream_on_table := by decide
  stream_off_table := by decide

theorem witness_AttachLoadsResetValues :
    (({ stS0 with host := [.attach] } : State).tp = none ∧ ({ stS0 with host := [.attach] } : State).busy = false) ∧
      WellFormedCfg ({ stS0 with host := [.attach] } : State).cfg ∧ ¬WellFormedCfg { refCfg with minFps := 0 } :=
  ⟨by decide, refCfg_wellFormed, fun h => absurd h.fps_range.1 (by decide)⟩

theorem witness_DetachReleasesHandles :
    ({ stS0 with host := [.detach] } : State).tp = none ∧ ({ stS0 with host := [.detach] } : State).busy = false ∧
      ({ stS0 with host := [.detach] } : State).rstHeld = true := by decide

theorem witness_HostReadsStatusRegisters :
    State.reset.activeMode = 0xFF#8 ∧ stC0.activeMode ≠ 0xFF#8 ∧ (stC0.cfg.modes[stC0.activeMode.toNat]?).isSome = true ∧
      [0x08#8, 0x0F#8, 0x1D#8, 0x1F#8, 0x24#8, 0xFF#8].all (fun i : Byte =>
        decide ((8 ≤ i.toNat ∧ i.toNat < 0x10) ∨ (0x1D ≤ i.toNat ∧ i.toNat < 0x20) ∨ 0x24 ≤ i.toNat)) = true := by decide

/-- A state with the invariant, in the middle of a table, from which a step goes on. -/
theorem witness_StepKeepsInv : Inv (walking 0) ∧ isNext (step (walking 0)) = true := by
  refine ⟨⟨by decide, by decide, by decide, by decide, by decide, by decide, by decide, by decide, ?_⟩, by decide⟩
  intro p hp
  have hp' : p = { table := .streamOn, index := 0 } := by simpa [walking, answering] using hp.symm
  subst hp'
  exact ⟨by decide, by decide, [0x1200#16, 0xFF00#16], by decide, by decide⟩

theorem witness_InvStatesGoOn : Inv (walking 0) := witness_StepKeepsInv.1

theorem witness_StepKeepsConfiguration : isNext (port 0x030000000000 (answering stC0 [] [.ok])) = true := by decide

theorem witness_TraceOnlyGrows : isNext (port 0x030000000000 (answering stC0 [] [.err])) = true := by decide

theorem witness_LogFlagsAreSticky :
    isNext (exec (.unknown 0x7F#8 0#8 0#32) stC0) = true ∧
      isNext (step { stC0 with log := 0x0F#8, host := [.detach] }) = true ∧
      ({ stC0 with log := 0x0F#8, host := [.detach] } : State).host.head? ≠ some .attach := by decide

theorem witness_AttributesWrittenOnlyBySetFps :
    isNext (exec (.setFps 0#8 0x001E0001#32) (answering stC0 [.ok 0x24#8, .ok 0x04#8, .ok 0#8] [.ok, .ok, .ok])) = true ∧
      isNext (exec (.te 0#8) (walking 1)) = true := by decide

theorem witness_RegisterWriters :
    isNext (exec (.gainEncode 16#8 0x00018000#32) stC0) = true ∧ isNext (exec (.tw 0x12#8 0#8) (walking 0)) = true := by decide

theorem witness_CommandsEndWithResponse :
    isCommand (.streamOn 0#8 0#32) = true ∧ stC0.tp = none ∧
      isNext (exec (.streamOn 0#8 0#32) (answering stC0 [] [.ok])) = true := by decide

theorem witness_PhaseFollowsTransitionTable :
    isNext (exec (.streamOn 0#8 0#32) (answering stC0 [] [.ok])) = true ∧
      ((phaseColumn (.streamOn 0#8 0#32)).cell stC0.phase = some .streaming) ∧
      isNext (exec (.streamOn 0#8 0#32) State.reset) = true ∧
      ((phaseColumn (.streamOn 0#8 0#32)).cell State.reset.phase = none) ∧
      isNext (exec (.detect 0#8 0#32) { answering State.reset [.err] [] with gpioAnswers := [.ok] }) = true ∧
      (stateOr stU (exec (.detect 0#8 0#32) { answering State.reset [.err] [] with gpioAnswers := [.ok] })).status ≠ 0#32 ∧
      (stateOr stU (exec (.streamOn 0#8 0#32) (answering stC0 [] [.err]))).status ≠ 0#32 := by decide

theorem witness_PhaseGateRefusesDeviceCommands :
    isDeviceCommand (.setFps 0#8 0x00640000#32) = true ∧ State.reset.phase = .preDetect ∧ stF.phase = .detectFailed ∧
      isCommand (.unknown 0x7F#8 0#8 0#32) = true ∧ isDeviceCommand (.unknown 0x7F#8 0#8 0#32) = false := by decide

theorem witness_BusAccessesFollowTable :
    isCommand (.resize 0#8 1#32) = true ∧ isDeviceCommand (.resize 0#8 1#32) = true ∧
      isNext (exec (.resize 0#8 1#32) (answering stC0 [] [.ok])) = true ∧
      (stateOr stF (exec (.resize 0#8 1#32) (answering { stC0 with status := 1#32 } [] [.ok]))).status = 0#32 := by decide

/-- The accesses of the example of R160: three loads, then three stores, the vertical total 0x032F low byte first. -/
theorem test_accesses_setFps :
    accessesOf (answering stC0 [.ok 0x24#8, .ok 0x04#8, .ok 0x00#8] []) (.setFps 0#8 0x00190001#32) =
      [.load 0x20#8, .load 0x21#8, .load 0x1F#8, .store 0x1F#8 0x80#8, .store 0x22#8 0x2F#8, .store 0x23#8 0x03#8] := by
  decide

theorem witness_CommandEventsAreBounded :
    isCommand (.init 0#8 0#32) = true ∧ isNext (exec (.init 0#8 0#32) (answering stU [] [.ok, .ok, .ok])) = true := by decide

theorem witness_DetectSucceeds :
    (answering State.reset [.ok 0xA5#8, .ok 0x5A#8] []).phase = .preDetect ∧
      readReply (answering State.reset [.ok 0xA5#8, .ok 0x5A#8] []) 0 0x0A#8 = .ok refCfg.idHVal ∧
      readReply (answering State.reset [.ok 0xA5#8, .ok 0x5A#8] []) 1 0x0B#8 = .ok refCfg.idLVal := by decide

theorem witness_DetectFailsOnIdentity :
    State.reset.phase = .preDetect ∧ readReply (answering State.reset [.err] []) 0 0x0A#8 = .err ∧
      (readReply (answering State.reset [.ok 0xA4#8] []) 0 0x0A#8 = .ok 0xA4#8 ∧ 0xA4#8 ≠ refCfg.idHVal) ∧
      (readReply (answering State.reset [.ok 0xA5#8, .err] []) 0 0x0A#8 = .ok refCfg.idHVal ∧
        readReply (answering State.reset [.ok 0xA5#8, .err] []) 1 0x0B#8 = .err) ∧
      (readReply (answering State.reset [.ok 0xA5#8, .ok 0#8] []) 1 0x0B#8 = .ok 0#8 ∧ 0#8 ≠ refCfg.idLVal) := by decide

theorem witness_DetectActsOncePerAttach :
    stU.phase = .uninitialized ∧ stC0.phase = .configured ∧ stS0.phase = .streaming ∧ stF.phase = .detectFailed := by decide

theorem witness_FailedDetectBlocksInit :
    State.reset.phase = .preDetect ∧
      readReply (answering State.reset [.ok 0xA4#8] []) 0 State.reset.cfg.idHAddr ≠ .ok State.reset.cfg.idHVal ∧
      isNext (exec (.detect 0#8 0#32) { answering State.reset [.ok 0xA4#8] [] with gpioAnswers := [.ok] }) = true := by decide

theorem writesAccepted_ok1 (s : State) (a v : Byte) (h : writeReply s 0 a v = .ok) : writesAccepted s [(a, v)] := by
  intro j hj
  have : j = 0 := by simpa using hj
  subst this
  exact h

theorem witness_InitAppliesModeTable :
    detected stU = true ∧ stU.cfg.modes.length ≤ 255 ∧
      (stU.cfg.modes[(1#32).toNat]?).map ModeDescriptor.table = some [0x1241#16, 0xFF00#16] ∧
      tableHasEnd [0x1241#16, 0xFF00#16] = true ∧
      writesAccepted (answering stU [] [.ok]) (tableWrites [0x1241#16, 0xFF00#16]) :=
  ⟨by decide, by decide, by decide, by decide, writesAccepted_ok1 _ 0x12#8 0x41#8 (by decide)⟩

theorem witness_ResizeAppliesTableUnlessActive :
    detected stC0 = true ∧ stC0.activeMode.toNat ≠ (1#32).toNat ∧ stC0.activeMode.toNat = (0#32).toNat ∧
      (stC0.cfg.modes[(1#32).toNat]?).map ModeDescriptor.table = some [0x1241#16, 0xFF00#16] ∧
      tableHasEnd [0x1241#16, 0xFF00#16] = true ∧
      writesAccepted (answering stC0 [] [.ok]) (tableWrites [0x1241#16, 0xFF00#16]) :=
  ⟨by decide, by decide, by decide, by decide, by decide, writesAccepted_ok1 _ 0x12#8 0x41#8 (by decide)⟩

theorem witness_UnknownModeIsOutOfRange : detected stU = true ∧ stU.cfg.modes.length ≤ (2#32).toNat := by decide

theorem witness_StreamOnCommandsWriteTable :
    detected stU = true ∧ tableHasEnd stU.cfg.streamOnTable = true ∧
      writesAccepted (answering stU [] [.ok]) (tableWrites stU.cfg.streamOnTable) :=
  ⟨by decide, by decide, writesAccepted_ok1 _ 0x12#8 0x00#8 (by decide)⟩

theorem witness_StreamOffCommandsWriteTable :
    detected stS0 = true ∧ tableHasEnd stS0.cfg.streamOffTable = true ∧
      writesAccepted (answering stS0 [] [.ok]) (tableWrites stS0.cfg.streamOffTable) :=
  ⟨by decide, by decide, writesAccepted_ok1 _ 0x12#8 0x40#8 (by decide)⟩

/-- `INIT(0)` whose second write is refused (M21). -/
theorem witness_FailedTableWriteAborts :
    detected stU = true ∧ tableOfCommand (.init 0#8 0#32) stU = some (.mode 0) ∧
      tableOf stU.cfg (.mode 0) = some ([0x1240#16, 0xFE05#16] ++ packEntry 0x20#8 0x24#8 :: [0x2104#16, 0xFF00#16]) ∧
      tableHasEnd [0x1240#16, 0xFE05#16] = false ∧ 0x20#8 ≠ 0xFF#8 ∧ 0x20#8 ≠ 0xFE#8 ∧
      writesAccepted (answering stU [] [.ok, .err]) (tableWrites [0x1240#16, 0xFE05#16]) ∧
      writeReply (answering stU [] [.ok, .err]) (tableWrites [0x1240#16, 0xFE05#16]).length 0x20#8 0x24#8 = .err :=
  ⟨by decide, by decide, by decide, by decide, by decide, by decide, writesAccepted_ok1 _ 0x12#8 0x40#8 (by decide),
    by decide⟩

theorem witness_SameModeTwiceWritesTableOnce :
    stU.cfg.modes.length ≤ 255 ∧ isNext (exec (.resize 0#8 1#32) (answering stU [] [.ok])) = true ∧
      (stateOr stF (exec (.resize 0#8 1#32) (answering { stU with status := 1#32 } [] [.ok]))).status = 0#32 ∧
      isNext (exec (.init 0#8 1#32) (answering stU [] [.ok])) = true ∧
      (stateOr stF (exec (.init 0#8 1#32) (answering { stU with status := 1#32 } [] [.ok]))).status = 0#32 ∧
      stC0.activeMode.toNat = (0#32).toNat ∧ isNext (exec (.resize 0#8 0#32) stC0) = true ∧
      (stateOr stF (exec (.resize 0#8 0#32) { stC0 with status := 1#32 })).status = 0#32 := by decide

theorem witness_StreamOnThenOffWritesBothTables :
    detected stU = true ∧ tableHasEnd stU.cfg.streamOnTable = true ∧ tableHasEnd stU.cfg.streamOffTable = true ∧
      writesAccepted (answering stU [] [.ok, .ok]) (tableWrites stU.cfg.streamOnTable ++ tableWrites stU.cfg.streamOffTable) := by
  refine ⟨by decide, by decide, by decide, ?_⟩
  intro j hj
  have hj' : j < 2 := hj
  obtain rfl | rfl : j = 0 ∨ j = 1 := by omega
  · exact (by decide : writeReply (answering stU [] [.ok, .ok]) 0 0x12#8 0x00#8 = .ok)
  · exact (by decide : writeReply (answering stU [] [.ok, .ok]) 1 0x12#8 0x40#8 = .ok)

theorem witness_TableEntriesWriteAndDelay :
    (walking 0).tp = some { table := .streamOn, index := 0 } ∧ writeReply (walking 0) 0 0x12#8 0x00#8 = .ok ∧
      writeReply (answering (walking 0) [] [.err]) 0 0x12#8 0x00#8 = .err := by decide

theorem witness_TableEndResumesCommand :
    (walking 1).tp = some { table := .streamOn, index := 1 } ∧ (walking 1).op = 0x03#8 ∧
      ({ walking 1 with op := 0x04#8, tp := some { table := .streamOff, index := 1 } } : State).op = 0x04#8 ∧
      ({ walking 1 with op := 0x02#8, arg0 := 1#32, tp := some { table := .mode 1, index := 1 } } : State).op = 0x02#8 ∧
      (refCfg.modes[(1#32).toNat]?).isSome = true := by decide

theorem witness_EntryStepsAgreeWithCommand :
    detected stC0 = true ∧ tableOfCommand (decodeCommand 0x030000000000#48) stC0 = some .streamOn ∧
      tableOf stC0.cfg .streamOn = some [0x1200#16, 0xFF00#16] ∧
      isNext (exec (decodeCommand 0x030000000000#48) (accept 0x030000000000#48 (answering stC0 [] [.ok]))) = true := by decide

theorem witness_GainEncodeLoadsResults :
    encodeGain refCfg 0x0003F446#32 0x00018000#32 16 = (0x16#8, 0x0001759D#32) := by decide

theorem witness_DefaultEncodeFormula : refCfg.numerics = .exactFloor := by decide

theorem witness_GainDecodeLoadsResults :
    (4 ≤ refCfg.gfp ∧ refCfg.gfp ≤ 16 ∧ refCfg.numerics = .exactFloor) ∧
      (4 ≤ ({ refCfg with gfp := 4, numerics := .custom 0 } : Cfg).gfp ∧
        ({ refCfg with gfp := 4, numerics := .custom 0 } : Cfg).numerics = .custom 0) := by decide

theorem witness_SetAnalogGainWritesCode :
    detected stC0 = true ∧ encodeGain stC0.cfg stC0.attr.maxAgain 0x00018000#32 stC0.cfg.ispShift = (0x16#8, 0x0001759D#32) ∧
      writeReply (answering stC0 [] [.ok]) 0 0x00#8 0x16#8 = .ok ∧
      writeReply (answering stC0 [] [.err]) 0 0x00#8 0x16#8 = .err ∧ State.reset.phase = .preDetect ∧
      stF.phase = .detectFailed := by decide

theorem witness_NumericsMeetContract : (0 : Nat) ≤ 28 ∧ (28 : Nat) ≤ 28 := by decide

theorem witness_RelogIsFlooredLogarithm : (4 : Nat) ≤ 4 ∧ (28 : Nat) ≤ 28 := by decide

theorem witness_MantissaCountsThresholds :
    (4 : Nat) ≤ 16 ∧ (16 : Nat) ≤ 28 ∧ 0x18000 / 2 ^ 16 ≤ 3 ∧ 0x3FFFF / 2 ^ 16 ≤ 3 := by decide

theorem witness_ClosedFormEncodesLikeAlgorithm : (4 : Nat) ≤ 16 ∧ (28 : Nat) ≤ 28 := by decide

/-- The round trip table of section 2.2: code 0x16 goes to 0x15, code 0x30 to itself. -/
theorem witness_DecodeThenEncodeLosesOneStep :
    refCfg.numerics = .exactFloor ∧ 5 ≤ 16 ∧ codeExponent 0x16#8 ≤ 3 ∧ codeExponent 0x30#8 ≤ 3 ∧
      (decodeGain refCfg 0x16#8 16).1.toNat ≤ (0x0003F446#32).toNat ∧
      (decodeGain refCfg 0x30#8 5).1.toNat ≤ (0x0003F446#32).toNat := by decide

theorem witness_AchievedNeverAboveRequest : refCfg.numerics = .exactFloor := by decide

theorem witness_EncodeIsMonotone : refCfg.numerics = .exactFloor ∧ (0x1663#32).toNat ≤ (0x1664#32).toNat := by decide

/-- The source's example E5, at `MAX_FPS` (T2) and at `MIN_FPS` (T3). -/
theorem witness_SetFpsCommitsTiming :
    detected stC0 = true ∧
      [0x00190001#32, 0x001E0001#32, 0x00050001#32].all (fun r : U32 =>
        decide (r.toNat % 65536 ≠ 0) && decide (256 * refCfg.minFps ≤ 256 * (r.toNat / 65536) / (r.toNat % 65536)) &&
          decide (256 * (r.toNat / 65536) / (r.toNat % 65536) ≤ 256 * refCfg.maxFps)) = true ∧
      2 * (256 * (0x04#8).toNat + (0x24#8).toNat) ≠ 0 ∧
      readReply (answering stC0 [.ok 0x24#8, .ok 0x04#8, .ok 0x00#8] [.ok, .ok, .ok]) 0 0x20#8 = .ok 0x24#8 ∧
      readReply (answering stC0 [.ok 0x24#8, .ok 0x04#8, .ok 0x00#8] [.ok, .ok, .ok]) 1 0x21#8 = .ok 0x04#8 ∧
      readReply (answering stC0 [.ok 0x24#8, .ok 0x04#8, .ok 0x00#8] [.ok, .ok, .ok]) 2 0x1F#8 = .ok 0x00#8 ∧
      writeReply (answering stC0 [.ok 0x24#8, .ok 0x04#8, .ok 0x00#8] [.ok, .ok, .ok]) 0 0x1F#8 0x80#8 = .ok ∧
      writeReply (answering stC0 [.ok 0x24#8, .ok 0x04#8, .ok 0x00#8] [.ok, .ok, .ok]) 1 0x22#8 0x2F#8 = .ok ∧
      writeReply (answering stC0 [.ok 0x24#8, .ok 0x04#8, .ok 0x00#8] [.ok, .ok, .ok]) 2 0x23#8 0x03#8 = .ok := by decide

/-- T20, T11 and T9: denominator 0, just below and just above the interval. -/
theorem witness_SetFpsRejectsRate :
    detected stC0 = true ∧ (0x00190000#32).toNat % 65536 = 0 ∧
      256 * ((0x04FF0100#32).toNat / 65536) / ((0x04FF0100#32).toNat % 65536) < 256 * refCfg.minFps ∧
      256 * refCfg.maxFps < 256 * ((0x1E010100#32).toNat / 65536) / ((0x1E010100#32).toNat % 65536) ∧
      (256 * ((0x00050001#32).toNat / 65536) / ((0x00050001#32).toNat % 65536) = 256 * refCfg.minFps ∧
        256 * ((0x001E0001#32).toNat / 65536) / ((0x001E0001#32).toNat % 65536) = 256 * refCfg.maxFps) := by decide

/-- The six failures of section 2.3, by the answer that fails. -/
theorem witness_SetFpsStopsAtFirstFailure :
    detected stC0 = true ∧ rateAccepted stC0.cfg 0x00190001#32 = true ∧
      readReply (answering stC0 [.err] []) 0 0x20#8 = .err ∧
      readReply (answering stC0 [.ok 0x24#8, .err] []) 1 0x21#8 = .err ∧
      readReply (answering stC0 [.ok 0x24#8, .ok 0x04#8, .err] []) 2 0x1F#8 = .err ∧
      ¬(0x24#8 = 0#8 ∧ 0x04#8 = 0#8) ∧
      writeReply (answering stC0 [] [.err]) 0 0x1F#8 0x80#8 = .err ∧
      writeReply (answering stC0 [] [.ok, .err]) 1 0x22#8 0x2F#8 = .err ∧
      writeReply (answering stC0 [] [.ok, .ok, .err]) 2 0x23#8 0x03#8 = .err := by decide

/-- T35. -/
theorem witness_ZeroHorizontalTotalIsInternalFault :
    detected stC0 = true ∧ rateAccepted stC0.cfg 0x00190001#32 = true ∧
      readReply (answering stC0 [.ok 0#8, .ok 0#8] []) 0 0x20#8 = .ok 0#8 ∧
      readReply (answering stC0 [.ok 0#8, .ok 0#8] []) 1 0x21#8 = .ok 0#8 := by decide

/-- Both ends of the interval, the smallest and the largest horizontal total (T31, T33). -/
theorem witness_AcceptedRateBoundsVerticalTotal :
    1 ≤ refCfg.minFps ∧ rateAccepted refCfg 0x00050001#32 = true ∧ rateAccepted refCfg 0x001E0001#32 = true ∧
      horizontalTotal 0x00#8 0x01#8 = 2 ∧ horizontalTotal 0xFF#8 0xFF#8 = 131070 := by decide

theorem witness_SetIntegrationTimeWritesBothBytes :
    detected stC0 = true ∧ writeReply (answering stC0 [] [.err, .ok]) 0 0x01#8 0x2B#8 = .err ∧
      writeReply (answering stC0 [] [.err, .ok]) 1 0x02#8 0x03#8 = .ok ∧ State.reset.phase = .preDetect ∧
      stF.phase = .detectFailed := by decide

end Sys2Proof.Tests
end

/-! What every step keeps (spec 00_scope.md R6, R11, R14; 10_state.md R25 to R29, R38; 60_exceptions.md R221, R231). A
command is some activity and then its end: `Activity` says what that activity keeps, `CommandEnd` that the command ends
with a known `STATUS`, and each shared operation and each command is shown once to be of this form. -/

namespace Sys2Proof.Machine

/-! ## The environment -/

/-- CFG and the answers given in advance are only read, and answers are only drawn (R6, R35, R62). -/
structure KeepsEnvironment (s t : State) : Prop where
  cfg : t.cfg = s.cfg := by rfl
  readAnswers : t.readAnswers = s.readAnswers := by rfl
  writeAnswers : t.writeAnswers = s.writeAnswers := by rfl
  gpioAnswers : t.gpioAnswers = s.gpioAnswers := by rfl
  reads : s.reads ≤ t.reads := by exact le_rfl
  writes : s.writes ≤ t.writes := by exact le_rfl
  gpios : s.gpios ≤ t.gpios := by exact le_rfl

theorem KeepsEnvironment.refl (s : State) : KeepsEnvironment s s := {}

theorem KeepsEnvironment.trans {s t u : State} (h : KeepsEnvironment s t) (h' : KeepsEnvironment t u) :
    KeepsEnvironment s u where
  cfg := h'.cfg.trans h.cfg
  readAnswers := h'.readAnswers.trans h.readAnswers
  writeAnswers := h'.writeAnswers.trans h.writeAnswers
  gpioAnswers := h'.gpioAnswers.trans h.gpioAnswers
  reads := h.reads.trans h'.reads
  writes := h.writes.trans h'.writes
  gpios := h.gpios.trans h'.gpios

/-! ## The invariant without the command in progress -/

/-- The clauses of `Inv` that hold at every point of a command too: those that `STATUS`, `BUSY` and `TP` do not
enter. -/
structure Sound (s : State) : Prop where
  cfg_ok : cfgOk s.cfg = true
  mode_iff : (s.phase = .configured ∨ s.phase = .streaming) ↔ s.activeMode ≠ 0xFF#8
  mode_named : s.activeMode ≠ 0xFF#8 → s.activeMode.toNat < s.cfg.modes.length
  log_reserved : s.log &&& 0xF0#8 = 0#8
  rst_pin : s.rstHeld = true → s.cfg.resetPin.isSome = true
  pwdn_pin : s.pwdnHeld = true → s.cfg.pwdnPin.isSome = true

theorem Inv.sound {s : State} (h : Inv s) : Sound s :=
  ⟨h.cfg_ok, h.mode_iff, h.mode_named, h.log_reserved, h.rst_pin, h.pwdn_pin⟩

/-- An idle state with the other clauses has the invariant. -/
theorem Sound.inv_of_idle {s : State} (h : Sound s) (hst : s.status ∈ statusValues) (hb : s.busy = false)
    (htp : s.tp = none) : Inv s where
  cfg_ok := h.cfg_ok
  mode_iff := h.mode_iff
  mode_named := h.mode_named
  status_known := hst
  log_reserved := h.log_reserved
  rst_pin := h.rst_pin
  pwdn_pin := h.pwdn_pin
  busy_walk := by simp [hb, htp]
  walk := by simp [htp]

/-- `Sound` reads CFG, `PHASE`, `ACTIVE_MODE`, `LOG` and the handle bits only. -/
theorem Sound.congr {s t : State} (h : Sound s) (hc : t.cfg = s.cfg := by rfl) (hp : t.phase = s.phase := by rfl)
    (hm : t.activeMode = s.activeMode := by rfl) (hl : t.log = s.log := by rfl) (hr : t.rstHeld = s.rstHeld := by rfl)
    (hw : t.pwdnHeld = s.pwdnHeld := by rfl) : Sound t where
  cfg_ok := hc ▸ h.cfg_ok
  mode_iff := by rw [hp, hm]; exact h.mode_iff
  mode_named := by rw [hm, hc]; exact h.mode_named
  log_reserved := hl ▸ h.log_reserved
  rst_pin := by rw [hr, hc]; exact h.rst_pin
  pwdn_pin := by rw [hw, hc]; exact h.pwdn_pin

/-- `PHASE` may move where a mode stays active or none was (R26). -/
theorem Sound.setPhase {s : State} (h : Sound s) {p : Phase}
    (hp : (p = .configured ∨ p = .streaming) ↔ (s.phase = .configured ∨ s.phase = .streaming)) :
    Sound { s with phase := p } :=
  { h with mode_iff := hp.trans h.mode_iff }

theorem modes_length_of_cfgOk {c : Cfg} (h : cfgOk c = true) : c.modes.length ≤ 255 := by
  simp only [cfgOk, Bool.and_eq_true, decide_eq_true_eq] at h
  tauto

/-- A mode of CFG may be recorded together with a phase that has an active mode (R26, R176, R177). -/
theorem Sound.recordMode {s : State} (h : Sound s) {k : U32} {d : ModeDescriptor} {p : Phase} (fps : U32)
    (hk : modeOperand s.cfg k = some d) (hp : p = .configured ∨ p = .streaming) :
    Sound { s with activeMode := k.setWidth 8, curFps := fps, phase := p } := by
  obtain ⟨hid, hne, hlt⟩ := modeId_byte (modes_length_of_cfgOk h.cfg_ok) hk
  exact { h with mode_iff := iff_of_true hp hne, mode_named := fun _ => by simpa only [hid] using hlt }

/-- Setting `LOG` bits among 3:0 leaves bits 7:4 clear (R28). -/
theorem reserved_or {l b : Byte} (hl : l &&& 0xF0#8 = 0#8) (hb : b &&& 0xF0#8 = 0#8) : (l ||| b) &&& 0xF0#8 = 0#8 := by
  rw [BitVec.and_comm] at hl hb ⊢
  rw [BitVec.and_or_distrib_left, hl, hb, BitVec.or_zero]

theorem Sound.setLog {s : State} (h : Sound s) {b : Byte} (hb : b &&& 0xF0#8 = 0#8) : Sound (setLog b s) :=
  { h with log_reserved := reserved_or h.log_reserved hb }

/-- Both pin stages of `DETECT` set `LOG` bits 1 and 2 at most, and hold a handle only of a pin (R29, R173, R174). -/
theorem Sound.afterPins {s : State} (h : Sound s) : Sound (afterPins s) where
  cfg_ok := h.cfg_ok
  mode_iff := h.mode_iff
  mode_named := h.mode_named
  log_reserved := by
    refine reserved_or (reserved_or h.log_reserved ?_) ?_ <;> split <;> rfl
  rst_pin := fun hr => by
    rcases Bool.or_eq_true_iff.1 hr with hheld | hnew
    · exact h.rst_pin hheld
    · exact (Bool.and_eq_true_iff.1 hnew).1
  pwdn_pin := fun hw => by
    rcases Bool.or_eq_true_iff.1 hw with hheld | hnew
    · exact h.pwdn_pin hheld
    · exact (Bool.and_eq_true_iff.1 hnew).1

/-! ## What a command does before its end -/

/-- What every command keeps before its end: the environment, the absence of `TP`, the clauses of `Sound`, and the
trace, to which it appends events other than `Resp`. -/
structure Activity (s b : State) : Prop extends KeepsEnvironment s b where
  tp_none : s.tp = none → b.tp = none
  sound : Sound s → Sound b
  events : ∃ evs : List Event, b.trace = s.trace ++ evs ∧ ∀ e ∈ evs, isResponse e = false

theorem Activity.trans {s b c : State} (h : Activity s b) (h' : Activity b c) : Activity s c where
  toKeepsEnvironment := h.toKeepsEnvironment.trans h'.toKeepsEnvironment
  tp_none := h'.tp_none ∘ h.tp_none
  sound := h'.sound ∘ h.sound
  events := by
    obtain ⟨evs, htr, hno⟩ := h.events
    obtain ⟨evs', htr', hno'⟩ := h'.events
    exact ⟨evs ++ evs', by rw [htr', htr, List.append_assoc], fun e he =>
      (List.mem_append.1 he).elim (hno e) (hno' e)⟩

/-- Registers are written and nothing else happens. -/
theorem Activity.of_registers {s b : State} (hs : Sound s → Sound b) (henv : KeepsEnvironment s b := by exact {})
    (htp : b.tp = s.tp := by rfl) (htr : b.trace = s.trace := by rfl) : Activity s b :=
  ⟨henv, fun h => htp.trans h, hs, [], by simp [htr], by simp⟩

theorem Activity.refl (s : State) : Activity s s := .of_registers id

/-- An event other than a `Resp` is appended. -/
theorem activity_emit {e : Event} (he : isResponse e = false) (s : State) : Activity s (emit e s) :=
  ⟨{}, id, (·.congr), [e], rfl, by simpa using he⟩

theorem activity_afterRead (a : Byte) (s : State) : Activity s (afterRead a s) :=
  ⟨{ reads := by simp }, id, (·.congr), [_], rfl, by simp [isResponse]⟩

theorem activity_afterWrite (a v : Byte) (s : State) : Activity s (afterWrite a v s) :=
  ⟨{ writes := by simp }, id, (·.congr), [_], rfl, by simp [isResponse]⟩

theorem activity_memRead {a : Byte} {s b : State} {r : ReadReply} (h : memRead a s = (r, b)) : Activity s b := by
  obtain rfl : afterRead a s = b := congrArg Prod.snd h
  exact activity_afterRead a s

theorem activity_memWrite {a v : Byte} {s b : State} {r : Reply} (h : memWrite a v s = (r, b)) : Activity s b := by
  obtain rfl : afterWrite a v s = b := congrArg Prod.snd h
  exact activity_afterWrite a v s

theorem activity_setLog {m : Byte} (hm : m &&& 0xF0#8 = 0#8) (s : State) : Activity s (setLog m s) :=
  .of_registers (·.setLog hm)

theorem activity_setResults (r0 r1 : U32) (s : State) : Activity s (setResults r0 r1 s) :=
  .of_registers (·.congr)

theorem activity_notify (s : State) : Activity s (notify s) := activity_emit rfl s

theorem activity_setPhase {s : State} {p : Phase}
    (hp : (p = .configured ∨ p = .streaming) ↔ (s.phase = .configured ∨ s.phase = .streaming)) :
    Activity s { s with phase := p } :=
  .of_registers (·.setPhase hp)

theorem activity_recordMode {s : State} {k : U32} {d : ModeDescriptor} {p : Phase} (hk : modeOperand s.cfg k = some d)
    (hp : p = .configured ∨ p = .streaming) :
    Activity s { s with activeMode := k.setWidth 8, curFps := d.frameRate, phase := p } :=
  .of_registers (·.recordMode d.frameRate hk hp)

theorem activity_retime (r : U32) (a : Attr) (s : State) : Activity s { s with attr := a, curFps := r } :=
  .of_registers (·.congr)

/-- The events of a pin's stage are no responses (R173, R174). -/
theorem isResponse_of_mem_pinEvents {pin : Option Nat} {r : Reply} {seq : List (Level × Nat)} {e : Event}
    (he : e ∈ pinEvents pin r seq) : isResponse e = false := by
  cases pin with
  | none => simp [pinEvents] at he
  | some p =>
    rcases List.mem_cons.1 he with rfl | he
    · rfl
    · split at he
      · obtain ⟨x, -, hx⟩ := List.mem_flatMap.1 he
        rcases List.mem_pair.1 hx with rfl | rfl <;> rfl
      · cases he

theorem activity_afterPins (s : State) : Activity s (afterPins s) where
  gpios := by simp only [afterPins]; omega
  tp_none := id
  sound := Sound.afterPins
  events := ⟨_, List.append_assoc _ _ _, fun _ he =>
    (List.mem_append.1 he).elim isResponse_of_mem_pinEvents isResponse_of_mem_pinEvents⟩

/-- The writes and delays of a table, whole or cut short, `TP` discarded at their end (R38, R201, R206). -/
theorem activity_tableRun {evs : List Event} (n : Nat) (s : State) (h : ∀ e ∈ evs, isResponse e = false) :
    Activity s { s with tp := none, writes := s.writes + n, trace := s.trace ++ evs } :=
  ⟨{ writes := Nat.le_add_right _ _ }, fun _ => rfl, (·.congr), evs, rfl, h⟩

/-! ## The end of a command -/

/-- A command ended: some activity, then `finish` with a code of R221 that is written (R17, R231). -/
def CommandEnd (s t : State) : Prop :=
  ∃ code ∈ statusValues, ∃ b, Activity s b ∧ t = finish code b

theorem Activity.then_end {s b t : State} (ha : Activity s b) (h : CommandEnd b t) : CommandEnd s t := by
  obtain ⟨code, hcode, c, hc, rfl⟩ := h
  exact ⟨code, hcode, c, ha.trans hc, rfl⟩

theorem commandEnd_done (s : State) : CommandEnd s (done s) := ⟨0#32, by decide, s, .refl s, rfl⟩

/-- Every kind but `GpioUnavailable`, which no command returns (R221, R225). -/
theorem commandEnd_raise {k : ErrorKind} (s : State) (hk : k ≠ .gpioUnavailable := by decide) :
    CommandEnd s (raise k s) := by
  refine ⟨statusCode k, ?_, s, .refl s, rfl⟩
  cases k with
  | gpioUnavailable => exact absurd rfl hk
  | busFailure | notDetected | outOfRange | internalFault => decide

theorem commandEnd_notify (s : State) : CommandEnd s (done (notify s)) :=
  (activity_notify s).then_end (commandEnd_done _)

theorem CommandEnd.keepsEnvironment {s t : State} (h : CommandEnd s t) : KeepsEnvironment s t := by
  obtain ⟨code, -, b, hb, rfl⟩ := h
  exact { hb.toKeepsEnvironment with }

/-- A command that ends leaves an idle state with the invariant. -/
theorem CommandEnd.inv {s t : State} (h : CommandEnd s t) (hs : Sound s) (htp : s.tp = none) : Inv t := by
  obtain ⟨code, hcode, b, hb, rfl⟩ := h
  have hsound : Sound (finish code b) := (hb.sound hs).congr
  exact hsound.inv_of_idle hcode rfl (hb.tp_none htp)

/-! ## Ends of the commands that apply a table -/

theorem commandEnd_finishStreamOn (s : State) : CommandEnd s (finishStreamOn s) :=
  (activity_setPhase (by cases s.phase <;> simp [phaseAfterStreamOn])).then_end (commandEnd_done _)

theorem commandEnd_finishStreamOff (s : State) : CommandEnd s (finishStreamOff s) :=
  (activity_setPhase (by cases s.phase <;> simp [phaseAfterStreamOff])).then_end (commandEnd_done _)

/-- A mode and its rate are recorded, and the host notified (R176, R177). -/
theorem commandEnd_recordMode {s : State} {k : U32} {d : ModeDescriptor} {p : Phase} (hk : modeOperand s.cfg k = some d)
    (hp : p = .configured ∨ p = .streaming) :
    CommandEnd s (done (notify { s with activeMode := k.setWidth 8, curFps := d.frameRate, phase := p })) :=
  (activity_recordMode hk hp).then_end (commandEnd_notify _)

theorem commandEnd_finishInit {s : State} {k : U32} {d : ModeDescriptor} (hk : modeOperand s.cfg k = some d) :
    CommandEnd s (finishInit k d s) :=
  commandEnd_recordMode hk (.inl rfl)

theorem commandEnd_finishResize {s : State} {k : U32} {d : ModeDescriptor} (hd : detected s = true)
    (hk : modeOperand s.cfg k = some d) : CommandEnd s (finishResize k d s) := by
  obtain ⟨hpre, hfail⟩ := (detected_iff s).1 hd
  refine commandEnd_recordMode hk ?_
  cases hp : s.phase with
  | preDetect => exact absurd hp hpre
  | detectFailed => exact absurd hp hfail
  | uninitialized | configured => exact .inl rfl
  | streaming => exact .inr rfl

/-- A command resumed from the end of its table, past the gate, ends (R204, R208). -/
theorem commandEnd_resumeCommand {s t : State} (hd : detected s = true) (h : resumeCommand s = some t) :
    CommandEnd s t := by
  obtain ⟨d, -, hk, rfl⟩ | ⟨d, -, hk, rfl⟩ | ⟨-, rfl⟩ | ⟨-, rfl⟩ := resumeCommand_cases h
  · exact commandEnd_finishInit hk
  · exact commandEnd_finishResize hd hk
  · exact commandEnd_finishStreamOn s
  · exact commandEnd_finishStreamOff s

/-! ## Ends of the other commands -/

theorem commandEnd_writeGain (code : Byte) (achieved : U32) (s : State) : CommandEnd s (writeGain code achieved s) := by
  unfold writeGain
  split
  · next hw => exact ((activity_memWrite hw).trans (activity_setResults ..)).then_end (commandEnd_done _)
  · next hw => exact ((activity_memWrite hw).trans (activity_setResults ..)).then_end (commandEnd_raise _)

theorem commandEnd_writeExposure (v : U32) (s : State) : CommandEnd s (writeExposure v s) := by
  have hwrites := (activity_afterWrite s.cfg.expoLAddr (lowByte v) s).trans
    (activity_afterWrite s.cfg.expoHAddr (highByte v) _)
  unfold writeExposure
  exact iteInduction (motive := CommandEnd s) (fun _ => hwrites.then_end (commandEnd_raise _))
    (fun _ => hwrites.then_end (commandEnd_done _))

theorem commandEnd_commitTiming (r vt : U32) (s : State) : CommandEnd s (commitTiming r vt s) :=
  (activity_retime r (timedAttr vt s.attr) s).then_end (commandEnd_notify _)

theorem commandEnd_writeHalves (r vt : U32) (s : State) : CommandEnd s (writeHalves r vt s) := by
  unfold writeHalves
  split
  · next hlo => exact (activity_memWrite hlo).then_end (commandEnd_raise _)
  · next hlo =>
    refine (activity_memWrite hlo).then_end ?_
    split
    · next hhi => exact (activity_memWrite hhi).then_end (commandEnd_raise _)
    · next hhi => exact (activity_memWrite hhi).then_end (commandEnd_commitTiming r vt _)

theorem commandEnd_programTiming (r vt : U32) (s : State) : CommandEnd s (programTiming r vt s) := by
  unfold programTiming
  split
  · next hrd => exact (activity_memRead hrd).then_end (commandEnd_raise _)
  · next hrd =>
    refine (activity_memRead hrd).then_end ?_
    split
    · next hwr => exact (activity_memWrite hwr).then_end (commandEnd_raise _)
    · next hwr => exact (activity_memWrite hwr).then_end (commandEnd_writeHalves r vt _)

theorem commandEnd_computeTiming (r : U32) (hts : Nat) (s : State) : CommandEnd s (computeTiming r hts s) := by
  unfold computeTiming
  split
  · exact (activity_setLog (by decide) s).then_end (commandEnd_raise _)
  · exact commandEnd_programTiming r _ s

theorem commandEnd_measureTiming (r : U32) (s : State) : CommandEnd s (measureTiming r s) := by
  unfold measureTiming
  split
  · next hlo => exact (activity_memRead hlo).then_end (commandEnd_raise _)
  · next hlo =>
    refine (activity_memRead hlo).then_end ?_
    split
    · next hhi => exact (activity_memRead hhi).then_end (commandEnd_raise _)
    · next hhi => exact (activity_memRead hhi).then_end (commandEnd_computeTiming r _ _)

/-! ### `DETECT` -/

theorem commandEnd_failDetect {k : ErrorKind} {s : State} (hp : s.phase = .preDetect)
    (hk : k ≠ .gpioUnavailable := by decide) : CommandEnd s (failDetect k s) :=
  (activity_setPhase (by simp [hp])).then_end (commandEnd_raise _ hk)

theorem commandEnd_checkIdentityLow {s : State} (hp : s.phase = .preDetect) : CommandEnd s (checkIdentityLow s) := by
  refine (activity_afterRead s.cfg.idLAddr s).then_end ?_
  simp only [checkIdentityLow, memRead]
  split
  · next hrd =>
    obtain ⟨-, rfl⟩ := Prod.mk.inj hrd
    exact commandEnd_failDetect hp
  · next hrd =>
    obtain ⟨-, rfl⟩ := Prod.mk.inj hrd
    split
    · exact (activity_setPhase (by simp [hp])).then_end (commandEnd_done _)
    · exact commandEnd_failDetect hp

theorem commandEnd_identityCheck {s : State} (hp : s.phase = .preDetect) : CommandEnd s (identityCheck s) := by
  refine (activity_afterRead s.cfg.idHAddr s).then_end ?_
  simp only [identityCheck, memRead]
  split
  · next hrd =>
    obtain ⟨-, rfl⟩ := Prod.mk.inj hrd
    exact commandEnd_failDetect hp
  · next hrd =>
    obtain ⟨-, rfl⟩ := Prod.mk.inj hrd
    split
    · exact commandEnd_checkIdentityLow hp
    · exact commandEnd_failDetect hp

theorem commandEnd_detectIn (s : State) : CommandEnd s (detectIn s) := by
  unfold detectIn
  split
  · next hp =>
    rw [pwdnPulse_resetPulse]
    exact (activity_afterPins s).then_end (commandEnd_identityCheck hp)
  · exact commandEnd_done s
  · exact commandEnd_done s
  · exact commandEnd_done s
  · exact commandEnd_raise s

/-! ## Every command ends -/

/-- If the answer is a next state, a command ended in it. -/
def AnswersEnd (s : State) (o : Host.Outcome State Fault Refusal) : Prop := ∀ t, o = .next t → CommandEnd s t

theorem answersEnd_next {s t : State} (h : CommandEnd s t) : AnswersEnd s (.next t) := by
  rintro _ ⟨⟩
  exact h

theorem answersEnd_gated {s : State} {o : Host.Outcome State Fault Refusal} (h : detected s = true → AnswersEnd s o) :
    AnswersEnd s (gated s o) := by
  unfold gated
  split
  · next hd => exact h hd
  · exact answersEnd_next (commandEnd_raise s)

/-- A table is applied, or aborted at a refused write (R201, R206). -/
theorem answersEnd_withTable {s : State} {T : TableId} {onOk : State → State}
    (h : ∀ b : State, b.cfg = s.cfg → b.phase = s.phase → CommandEnd b (onOk b)) :
    AnswersEnd s (withTable T onOk s) := by
  have hno (entries : List EntryWord) : ∀ e ∈ tableEvents entries, isResponse e = false := by
    obtain ⟨-, -, hkinds⟩ := tableEvents_writes entries
    exact fun e he => (hkinds e he).1
  obtain ⟨entries, -, -, -, heq⟩ | ⟨_, before, _, a, v, -, -, -, -, -, -, -, heq⟩ | ⟨-, heq⟩ := withTable_cases T onOk s
  · rw [heq]
    exact answersEnd_next ((activity_tableRun _ s (hno entries)).then_end (h _ rfl rfl))
  · rw [heq, List.append_assoc]
    refine answersEnd_next ((activity_tableRun ((tableWrites before).length + 1) s fun e he => ?_).then_end
      (commandEnd_raise (k := .busFailure) _))
    rcases List.mem_append.1 he with he | he
    · exact hno before e he
    · rw [List.mem_singleton.1 he]
      rfl
  · rw [heq]
    exact fun _ ht => nomatch ht

theorem answersEnd_execInit (k : U32) (s : State) : AnswersEnd s (execInit k s) := by
  refine answersEnd_gated fun _ => ?_
  split
  · exact answersEnd_next (commandEnd_raise s)
  · next d hk => exact answersEnd_withTable fun b hc _ => commandEnd_finishInit (by rw [hc]; exact hk)

theorem answersEnd_execResize (k : U32) (s : State) : AnswersEnd s (execResize k s) := by
  refine answersEnd_gated fun hd => ?_
  split
  · exact answersEnd_next (commandEnd_raise s)
  · next d hk =>
    split
    · exact answersEnd_next (commandEnd_finishResize hd hk)
    · refine answersEnd_withTable fun b hc hp => commandEnd_finishResize ?_ (by rw [hc]; exact hk)
      rw [detected_iff, hp]
      exact (detected_iff s).1 hd

theorem answersEnd_execSetFps (r : U32) (s : State) : AnswersEnd s (execSetFps r s) := by
  refine answersEnd_gated fun _ => answersEnd_next ?_
  split
  · exact commandEnd_measureTiming r s
  · exact commandEnd_raise s

theorem answersEnd_streamOn (s : State) : AnswersEnd s (gated s (withTable .streamOn finishStreamOn s)) :=
  answersEnd_gated fun _ => answersEnd_withTable fun b _ _ => commandEnd_finishStreamOn b

theorem answersEnd_streamOff (s : State) : AnswersEnd s (gated s (withTable .streamOff finishStreamOff s)) :=
  answersEnd_gated fun _ => answersEnd_withTable fun b _ _ => commandEnd_finishStreamOff b

/-- Results are loaded, then success (R132 to R134). -/
theorem answersEnd_setResults (r0 r1 : U32) (s : State) : AnswersEnd s (.next (done (setResults r0 r1 s))) :=
  answersEnd_next ((activity_setResults r0 r1 s).then_end (commandEnd_done _))

/-- Every command that answers ends (R92, R231). -/
theorem answersEnd_exec {i : Instr} (hi : isCommand i = true) (s : State) : AnswersEnd s (exec i s) := by
  cases i with
  | detect => exact answersEnd_next (commandEnd_detectIn s)
  | init _ k => exact answersEnd_execInit k s
  | resize _ k => exact answersEnd_execResize k s
  | streamOn | finishChange => exact answersEnd_streamOn s
  | streamOff | prepareChange => exact answersEnd_streamOff s
  | setFps _ r => exact answersEnd_execSetFps r s
  | setIntegrationTime _ v => exact answersEnd_gated fun _ => answersEnd_next (commandEnd_writeExposure v s)
  | setAnalogGain => exact answersEnd_gated fun _ => answersEnd_next (commandEnd_writeGain _ _ s)
  | gainEncode | gainDecode | dgainEncode => exact answersEnd_setResults _ _ s
  | setDigitalGain | getBlackLevel => exact answersEnd_next (commandEnd_done s)
  | unknown => exact answersEnd_next ((activity_setLog (by decide) s).then_end (commandEnd_done _))
  | te | td | tw => cases hi

/-- Settles O21: a command is activity, which appends no `Resp` and leaves `TP` absent, and then `finish`. -/
theorem commandsEndWithResponse : Obligations.CommandsEndWithResponse := by
  intro i s t hi htp h
  obtain ⟨code, hcode, b, hb, rfl⟩ := answersEnd_exec hi s t h
  obtain ⟨evs, htr, hno⟩ := hb.events
  exact ⟨hcode, rfl, hb.tp_none htp, evs, by simp [htr], hno⟩

/-! ## Table entries -/

/-- What the step of an entry can do: the calling command runs on, the walk goes to the next entry after a delay or an
accepted write, or a refused write ends the command (R202, R204 to R206). -/
theorem exec_entry_cases {e : EntryWord} {s t : State} {p : TablePtr} (hp : s.tp = some p)
    (h : exec (decodeEntry e) s = .next t) :
    resumeCommand (leaveTable s) = some t ∨
    (addressField e ≠ 0xFF#8 ∧ ∃ n, t = advanceTable (sleep n s)) ∨
    (addressField e ≠ 0xFF#8 ∧ ∃ a v, t = advanceTable (afterWrite a v s)) ∨
    (∃ a v, t = raise .busFailure (leaveTable (afterWrite a v s))) := by
  rcases entryKind_cases e with ⟨-, -, hd⟩ | ⟨-, ha, hd⟩ | ⟨-, ha, -, hd⟩
  · have h : execTe s = .next t := by rwa [hd] at h
    simp only [execTe, hp] at h
    split at h
    · cases h
    · next hr =>
      cases h
      exact .inl hr
  · have h : execTd (valueField e) s = .next t := by rwa [hd] at h
    simp only [execTd, hp] at h
    cases h
    exact .inr (.inl ⟨by rw [ha]; decide, _, rfl⟩)
  · have h : execTw (addressField e) (valueField e) s = .next t := by rwa [hd] at h
    simp only [execTw, hp, walkWrite, memWrite] at h
    cases hr : writeReply s 0 (addressField e) (valueField e) with
    | ok =>
      rw [hr] at h
      cases h
      exact .inr (.inr (.inl ⟨ha, _, _, rfl⟩))
    | err =>
      rw [hr] at h
      cases h
      exact .inr (.inr (.inr ⟨_, _, rfl⟩))

/-! ## Configuration and answers -/

theorem keepsEnvironment_resumeCommand {s t : State} (h : resumeCommand s = some t) : KeepsEnvironment s t := by
  obtain ⟨d, -, -, rfl⟩ | ⟨d, -, -, rfl⟩ | ⟨-, rfl⟩ | ⟨-, rfl⟩ := resumeCommand_cases h <;> exact {}

/-- An entry step keeps the environment, whatever command it belongs to. (`{ h with }` carries `h` over to a
state that differs in no field `KeepsEnvironment` reads.) -/
theorem keepsEnvironment_entry {e : EntryWord} {s t : State} {p : TablePtr} (hp : s.tp = some p)
    (h : exec (decodeEntry e) s = .next t) : KeepsEnvironment s t := by
  obtain hr | ⟨-, n, rfl⟩ | ⟨-, a, v, rfl⟩ | ⟨a, v, rfl⟩ := exec_entry_cases hp h
  · exact { keepsEnvironment_resumeCommand hr with }
  · exact {}
  · exact { (activity_afterWrite a v s).toKeepsEnvironment with }
  · exact { (activity_afterWrite a v s).toKeepsEnvironment with }

theorem keepsEnvironment_releaseHandles (s : State) : KeepsEnvironment s (releaseHandles s) := by
  rw [releaseHandles_eq]
  exact {}

theorem keepsEnvironment_step {s t : State} (h : step s = .next t) : KeepsEnvironment s t := by
  obtain ⟨p, -, e, hp, -, -, he⟩ | ⟨-, rfl⟩ | ⟨w, rest, -, -, -, hc⟩ | ⟨rest, -, -, -, -, rfl⟩ |
    ⟨rest, -, -, -, rfl⟩ := step_next_cases h
  · exact keepsEnvironment_entry hp he
  · exact .refl t
  · exact { (answersEnd_exec (isCommand_decodeCommand w) _ t hc).keepsEnvironment with }
  · exact { keepsEnvironment_releaseHandles { s with host := rest } with }
  · exact { keepsEnvironment_releaseHandles { s with host := rest } with }

/-- Settles O16, by the cases of a step. -/
theorem stepKeepsConfiguration : Obligations.StepKeepsConfiguration := by
  intro s t h
  obtain ⟨hcfg, hra, hwa, hga, hr, hw, hg⟩ := keepsEnvironment_step h
  exact ⟨hcfg, hra, hwa, hga, hr, hw, hg⟩

/-! ## The invariant -/

/-- `Inv` reads neither the host's inputs nor the write counter nor the trace. -/
theorem Inv.frame {s : State} (h : Inv s) (host : List HostInput) (writes : Nat) (trace : List Event) :
    Inv { s with host := host, writes := writes, trace := trace } :=
  ⟨h.cfg_ok, h.mode_iff, h.mode_named, h.status_known, h.log_reserved, h.rst_pin, h.pwdn_pin, h.busy_walk, h.walk⟩

/-- Past an entry that is no `TE` the `TE` is still ahead (R204). -/
theorem tableHasEnd_drop_succ {entries : List EntryWord} {i : Nat} {e : EntryWord} (he : entries[i]? = some e)
    (hne : addressField e ≠ 0xFF#8) : tableHasEnd (entries.drop (i + 1)) = tableHasEnd (entries.drop i) := by
  obtain ⟨hi, rfl⟩ := List.getElem?_eq_some_iff.1 he
  rw [List.drop_eq_getElem_cons hi, tableHasEnd_cons, beq_eq_false_iff_ne.2 hne, Bool.false_or]

/-- The walk goes on past an entry that is no `TE`. -/
theorem inv_advanceTable {s : State} (h : Inv s) {p : TablePtr} {entries : List EntryWord} {e : EntryWord}
    (hp : s.tp = some p) (ht : tableOf s.cfg p.table = some entries) (he : entries[p.index]? = some e)
    (hne : addressField e ≠ 0xFF#8) : Inv (advanceTable s) :=
  { h with
    busy_walk := by simp [h.busy_walk]
    walk := by
      intro q hq
      rw [advanceTable_tp, hp, Option.map_some, Option.some.injEq] at hq
      subst hq
      obtain ⟨hdet, hcall, es, hes, hend⟩ := h.walk p hp
      obtain rfl : entries = es := Option.some.inj (ht.symm.trans hes)
      exact ⟨hdet, hcall, entries, ht, (tableHasEnd_drop_succ he hne).trans hend⟩ }

/-- An entry step keeps the invariant: it goes on in the walk, or the command ends. -/
theorem inv_entry {s t : State} (h : Inv s) {p : TablePtr} {entries : List EntryWord} {e : EntryWord}
    (hp : s.tp = some p) (ht : tableOf s.cfg p.table = some entries) (he : entries[p.index]? = some e)
    (hx : exec (decodeEntry e) s = .next t) : Inv t := by
  obtain hr | ⟨hne, n, rfl⟩ | ⟨hne, a, v, rfl⟩ | ⟨a, v, rfl⟩ := exec_entry_cases hp hx
  · have hs : Sound (leaveTable s) := h.sound.congr
    obtain ⟨hdet, -⟩ := h.walk p hp
    exact (commandEnd_resumeCommand (s := leaveTable s) hdet hr).inv hs rfl
  · exact inv_advanceTable (s := sleep n s) (h.frame ..) hp ht he hne
  · exact inv_advanceTable (s := afterWrite a v s) (h.frame ..) hp ht he hne
  · have hs : Sound (leaveTable (afterWrite a v s)) := h.sound.congr
    exact (commandEnd_raise _).inv hs rfl

/-- After attach nothing is active, held or logged (R41, R260). -/
theorem inv_loadAttachValues {s : State} (h : cfgOk s.cfg = true) : Inv (loadAttachValues s) :=
  Sound.inv_of_idle
    { cfg_ok := h
      mode_iff := by simp [loadAttachValues]
      mode_named := fun hne => absurd rfl hne
      log_reserved := by simp [loadAttachValues]
      rst_pin := nofun
      pwdn_pin := nofun }
    (by simp [loadAttachValues, statusValues]) rfl rfl

/-- After detach nothing is active or held; `LOG` and `STATUS` stay (R262). -/
theorem inv_detach {s : State} (h : Inv s) (htp : s.tp = none) : Inv (detach s) := by
  unfold detach
  rw [releaseHandles_eq]
  exact Sound.inv_of_idle
    { cfg_ok := h.cfg_ok
      mode_iff := by simp
      mode_named := fun hne => absurd rfl hne
      log_reserved := h.log_reserved
      rst_pin := nofun
      pwdn_pin := nofun }
    h.status_known rfl htp

/-- Settles O14, by the cases of a step: an entry, waiting, a command, attach, detach. -/
theorem stepKeepsInv : Obligations.StepKeepsInv := by
  intro s t hinv h
  obtain ⟨p, entries, e, hp, ht, he, hx⟩ | ⟨-, rfl⟩ | ⟨w, rest, htp, -, -, hx⟩ | ⟨rest, -, -, -, hok, rfl⟩ |
    ⟨rest, htp, -, -, rfl⟩ := step_next_cases h
  · exact inv_entry hinv hp ht he hx
  · exact hinv
  · have hs : Sound (accept w { s with host := rest }) := hinv.sound.congr
    exact (answersEnd_exec (isCommand_decodeCommand w) _ t hx).inv hs htp
  · refine inv_loadAttachValues ?_
    rwa [(keepsEnvironment_releaseHandles _).cfg]
  · exact inv_detach (hinv.frame ..) htp

end Sys2Proof.Machine

/-! Who writes `ATTR`, `RES0`, `RES1`, `ACTIVE_MODE`, `CUR_FPS` and `LOG` (spec 10_state.md R22, R26 to R28, R32).
`KeepsRegisters` says that none of them was written but for bits of `LOG` that were set; `exec_registerEffect` says once,
for every instruction, which of them it may write besides, and the statements about writers are its cases. -/

namespace Sys2Proof.Machine

/-! ## Keeping the registers -/

/-- Setting bits keeps the bits that were set. -/
theorem and_or_cancel (l b : Byte) : l &&& (l ||| b) = l := by
  ext i hi
  simpa using .inl

/-- `ATTR`, `RES0`, `RES1`, `ACTIVE_MODE` and `CUR_FPS` are as they were, and no bit of `LOG` was cleared. -/
structure KeepsRegisters (s t : State) : Prop where
  attr : t.attr = s.attr := by rfl
  res0 : t.res0 = s.res0 := by rfl
  res1 : t.res1 = s.res1 := by rfl
  activeMode : t.activeMode = s.activeMode := by rfl
  curFps : t.curFps = s.curFps := by rfl
  log : s.log &&& t.log = s.log := by exact BitVec.and_self

theorem KeepsRegisters.trans {s t u : State} (h : KeepsRegisters s t) (h' : KeepsRegisters t u) :
    KeepsRegisters s u where
  attr := h'.attr.trans h.attr
  res0 := h'.res0.trans h.res0
  res1 := h'.res1.trans h.res1
  activeMode := h'.activeMode.trans h.activeMode
  curFps := h'.curFps.trans h.curFps
  log := by
    calc s.log &&& u.log = s.log &&& t.log &&& u.log := by rw [h.log]
      _ = s.log := by rw [BitVec.and_assoc, h'.log, h.log]

theorem keepsRegisters_memRead {a : Byte} {s b : State} {r : ReadReply} (h : memRead a s = (r, b)) :
    KeepsRegisters s b := by
  obtain rfl : afterRead a s = b := congrArg Prod.snd h
  exact {}

theorem keepsRegisters_memWrite {a v : Byte} {s b : State} {r : Reply} (h : memWrite a v s = (r, b)) :
    KeepsRegisters s b := by
  obtain rfl : afterWrite a v s = b := congrArg Prod.snd h
  exact {}

theorem keepsRegisters_raise (k : ErrorKind) (s : State) : KeepsRegisters s (raise k s) := {}

theorem keepsRegisters_done (s : State) : KeepsRegisters s (done s) := {}

theorem keepsRegisters_setLog (b : Byte) (s : State) : KeepsRegisters s (setLog b s) :=
  { log := and_or_cancel _ _ }

/-! ## The three writes -/

/-- A mode and its rate are recorded (R26, R27, R176, R177). -/
def recordMode (k : U32) (d : ModeDescriptor) (p : Phase) (s : State) : State :=
  { s with activeMode := k.setWidth 8, curFps := d.frameRate, phase := p }

/-- A rate and the `ATTR` fields that follow from it are recorded (R158). -/
def retime (r vt : U32) (s : State) : State := { s with attr := timedAttr vt s.attr, curFps := r }

theorem finishInit_eq (k : U32) (d : ModeDescriptor) (s : State) :
    finishInit k d s = done (notify (recordMode k d .configured s)) := rfl

theorem finishResize_eq (k : U32) (d : ModeDescriptor) (s : State) :
    finishResize k d s = done (notify (recordMode k d (phaseAfterResize s.phase) s)) := rfl

theorem commitTiming_eq (r vt : U32) (s : State) : commitTiming r vt s = done (notify (retime r vt s)) := rfl

theorem KeepsRegisters.setResults {s b : State} (h : KeepsRegisters s b) (r0 r1 : U32) :
    KeepsRegisters (setResults r0 r1 s) (setResults r0 r1 b) :=
  { h with res0 := rfl, res1 := rfl }

theorem KeepsRegisters.recordMode {s b : State} (h : KeepsRegisters s b) (k : U32) (d : ModeDescriptor) (p : Phase) :
    KeepsRegisters (recordMode k d p s) (recordMode k d p b) :=
  { h with activeMode := rfl, curFps := rfl }

theorem KeepsRegisters.retime {s b : State} (h : KeepsRegisters s b) (r vt : U32) :
    KeepsRegisters (retime r vt s) (retime r vt b) :=
  { h with attr := congrArg (timedAttr vt) h.attr, curFps := rfl }

/-- `RES0` and `RES1` are written by these commands (R22). -/
def writesResults (i : Instr) : Prop :=
  (∃ a v, i = .gainEncode a v) ∨ (∃ a v, i = .gainDecode a v) ∨ (∃ a v, i = .dgainEncode a v) ∨
    (∃ a v, i = .setAnalogGain a v)

/-- The instruction ends an `INIT` or a `RESIZE` of mode `k`; a `TE` does so for the command in `OP` (R26; log
entry 12). -/
def writesMode (i : Instr) (s : State) (k : U32) : Prop :=
  (∃ a, i = .init a k) ∨ (∃ a, i = .resize a k) ∨
    (∃ v, i = .te v ∧ (s.op = 0x02#8 ∨ s.op = 0x14#8) ∧ k = s.arg0)

/-- What an instruction writes of these registers: nothing, the results, the mode and its rate on success, or the rate
and its `ATTR` fields on success. -/
inductive RegisterEffect (i : Instr) (s t : State) : Prop
  | quiet (h : KeepsRegisters s t)
  | results (r0 r1 : U32) (hi : writesResults i) (h : KeepsRegisters (setResults r0 r1 s) t)
  | mode (k : U32) (d : ModeDescriptor) (p : Phase) (hi : writesMode i s k) (hst : t.status = 0#32)
      (h : KeepsRegisters (recordMode k d p s) t)
  | timing (a : Byte) (r vt : U32) (hi : i = .setFps a r) (hst : t.status = 0#32)
      (h : KeepsRegisters (retime r vt s) t)

/-! ## `DETECT` -/

theorem keepsRegisters_failDetect (k : ErrorKind) (s : State) : KeepsRegisters s (failDetect k s) := {}

theorem keepsRegisters_afterPins (s : State) : KeepsRegisters s (afterPins s) where
  log := by
    simp only [afterPins, BitVec.or_assoc]
    exact and_or_cancel _ _

theorem keepsRegisters_checkIdentityLow (s : State) : KeepsRegisters s (checkIdentityLow s) := by
  unfold checkIdentityLow
  split
  · next hrd => exact (keepsRegisters_memRead hrd).trans (keepsRegisters_failDetect ..)
  · next hrd =>
    refine (keepsRegisters_memRead hrd).trans ?_
    split
    · exact {}
    · exact keepsRegisters_failDetect ..

theorem keepsRegisters_identityCheck (s : State) : KeepsRegisters s (identityCheck s) := by
  unfold identityCheck
  split
  · next hrd => exact (keepsRegisters_memRead hrd).trans (keepsRegisters_failDetect ..)
  · next hrd =>
    refine (keepsRegisters_memRead hrd).trans ?_
    split
    · exact keepsRegisters_checkIdentityLow _
    · exact keepsRegisters_failDetect ..

theorem keepsRegisters_detectIn (s : State) : KeepsRegisters s (detectIn s) := by
  unfold detectIn
  split
  · rw [pwdnPulse_resetPulse]
    exact (keepsRegisters_afterPins s).trans (keepsRegisters_identityCheck _)
  · exact keepsRegisters_done s
  · exact keepsRegisters_done s
  · exact keepsRegisters_done s
  · exact keepsRegisters_raise _ s

/-! ## The timing and gain commands -/

/-- How `SET_FPS` ends from some point on: no register written, or success with the rate recorded (R157 to R160). -/
def TimingEnd (r : U32) (s t : State) : Prop :=
  KeepsRegisters s t ∨ (t.status = 0#32 ∧ ∃ vt, KeepsRegisters (retime r vt s) t)

theorem KeepsRegisters.then_timingEnd {r : U32} {s b t : State} (h : KeepsRegisters s b) (ht : TimingEnd r b t) :
    TimingEnd r s t := by
  obtain hq | ⟨hst, vt, hr⟩ := ht
  · exact .inl (h.trans hq)
  · exact .inr ⟨hst, vt, (h.retime r vt).trans hr⟩

theorem timingEnd_raise (r : U32) (k : ErrorKind) (s : State) : TimingEnd r s (raise k s) :=
  .inl (keepsRegisters_raise k s)

theorem timingEnd_commitTiming (r vt : U32) (s : State) : TimingEnd r s (commitTiming r vt s) :=
  .inr ⟨rfl, vt, {}⟩

theorem timingEnd_writeHalves (r vt : U32) (s : State) : TimingEnd r s (writeHalves r vt s) := by
  unfold writeHalves
  split
  · next hlo => exact (keepsRegisters_memWrite hlo).then_timingEnd (timingEnd_raise ..)
  · next hlo =>
    refine (keepsRegisters_memWrite hlo).then_timingEnd ?_
    split
    · next hhi => exact (keepsRegisters_memWrite hhi).then_timingEnd (timingEnd_raise ..)
    · next hhi => exact (keepsRegisters_memWrite hhi).then_timingEnd (timingEnd_commitTiming ..)

theorem timingEnd_programTiming (r vt : U32) (s : State) : TimingEnd r s (programTiming r vt s) := by
  unfold programTiming
  split
  · next hrd => exact (keepsRegisters_memRead hrd).then_timingEnd (timingEnd_raise ..)
  · next hrd =>
    refine (keepsRegisters_memRead hrd).then_timingEnd ?_
    split
    · next hwr => exact (keepsRegisters_memWrite hwr).then_timingEnd (timingEnd_raise ..)
    · next hwr => exact (keepsRegisters_memWrite hwr).then_timingEnd (timingEnd_writeHalves ..)

theorem timingEnd_computeTiming (r : U32) (hts : Nat) (s : State) : TimingEnd r s (computeTiming r hts s) := by
  unfold computeTiming
  split
  · exact (keepsRegisters_setLog _ s).then_timingEnd (timingEnd_raise ..)
  · exact timingEnd_programTiming ..

theorem timingEnd_measureTiming (r : U32) (s : State) : TimingEnd r s (measureTiming r s) := by
  unfold measureTiming
  split
  · next hlo => exact (keepsRegisters_memRead hlo).then_timingEnd (timingEnd_raise ..)
  · next hlo =>
    refine (keepsRegisters_memRead hlo).then_timingEnd ?_
    split
    · next hhi => exact (keepsRegisters_memRead hhi).then_timingEnd (timingEnd_raise ..)
    · next hhi => exact (keepsRegisters_memRead hhi).then_timingEnd (timingEnd_computeTiming ..)

theorem keepsRegisters_writeExposure (v : U32) (s : State) : KeepsRegisters s (writeExposure v s) := by
  unfold writeExposure
  exact iteInduction (motive := KeepsRegisters s) (fun _ => {}) (fun _ => {})

/-- `SET_ANALOG_GAIN` loads the results whatever the bus answers (R135). -/
theorem keepsRegisters_writeGain (code : Byte) (achieved : U32) (s : State) :
    KeepsRegisters (setResults achieved (code.setWidth 32) s) (writeGain code achieved s) := by
  unfold writeGain
  split
  · next hw => exact ((keepsRegisters_memWrite hw).setResults ..).trans (keepsRegisters_done _)
  · next hw => exact ((keepsRegisters_memWrite hw).setResults ..).trans (keepsRegisters_raise ..)

/-! ## Gate and table -/

/-- A gated command that answers was refused in a phase that is not detected, or its body answered (R170). -/
theorem gated_next_cases {s t : State} {o : Host.Outcome State Fault Refusal} (h : gated s o = .next t) :
    (detected s = false ∧ t = raise .notDetected s) ∨ (detected s = true ∧ o = .next t) := by
  cases hd : detected s with
  | false =>
    rw [gated_of_not_detected hd] at h
    cases h
    exact .inl ⟨rfl, rfl⟩
  | true =>
    rw [gated_of_detected hd] at h
    exact .inr ⟨rfl, h⟩

/-- A table-applying command that answers ran on from its table, or a refused write ended it (R201, R206). -/
theorem withTable_next_cases {T : TableId} {onOk : State → State} {s t : State} (h : withTable T onOk s = .next t) :
    (∃ entries, tableOf s.cfg T = some entries ∧ t = onOk { s with
      tp := none, writes := s.writes + (tableWrites entries).length, trace := s.trace ++ tableEvents entries }) ∨
    (∃ (n : Nat) (evs : List Event), t = raise .busFailure { s with tp := none, writes := n, trace := evs }) := by
  obtain ⟨entries, hT, -, -, heq⟩ | ⟨_, _, _, _, _, -, -, -, -, -, -, -, heq⟩ | ⟨-, heq⟩ := withTable_cases T onOk s
  · rw [heq] at h
    cases h
    exact .inl ⟨entries, hT, rfl⟩
  · rw [heq] at h
    cases h
    exact .inr ⟨_, _, rfl⟩
  · rw [heq] at h
    cases h

theorem gated_registerEffect {i : Instr} {s t : State} {o : Host.Outcome State Fault Refusal} (h : gated s o = .next t)
    (ho : o = .next t → RegisterEffect i s t) : RegisterEffect i s t := by
  obtain ⟨-, rfl⟩ | ⟨-, h⟩ := gated_next_cases h
  · exact .quiet (keepsRegisters_raise _ s)
  · exact ho h

theorem withTable_registerEffect {i : Instr} {T : TableId} {onOk : State → State} {s t : State}
    (h : withTable T onOk s = .next t) (hon : ∀ b, KeepsRegisters s b → RegisterEffect i s (onOk b)) :
    RegisterEffect i s t := by
  obtain ⟨entries, -, rfl⟩ | ⟨n, evs, rfl⟩ := withTable_next_cases h
  · exact hon _ {}
  · exact .quiet {}

/-- Modes recorded after a table, or without one (R176, R177). -/
theorem recordMode_registerEffect {i : Instr} {s b : State} {k : U32} (hi : writesMode i s k) (d : ModeDescriptor)
    (p : Phase) (h : KeepsRegisters s b) : RegisterEffect i s (done (notify (recordMode k d p b))) :=
  .mode k d p hi rfl { h.recordMode k d p with }

/-! ## Every instruction -/

theorem execInit_registerEffect {a : Byte} {k : U32} {s t : State} (h : execInit k s = .next t) :
    RegisterEffect (.init a k) s t := by
  refine gated_registerEffect h fun h => ?_
  split at h
  · cases h
    exact .quiet (keepsRegisters_raise _ s)
  · next d _ => exact withTable_registerEffect h fun _ => recordMode_registerEffect (.inl ⟨a, rfl⟩) d .configured

theorem execResize_registerEffect {a : Byte} {k : U32} {s t : State} (h : execResize k s = .next t) :
    RegisterEffect (.resize a k) s t := by
  have hi : writesMode (.resize a k) s k := .inr (.inl ⟨a, rfl⟩)
  refine gated_registerEffect h fun h => ?_
  split at h
  · cases h
    exact .quiet (keepsRegisters_raise _ s)
  · next d _ =>
    split at h
    · cases h
      exact recordMode_registerEffect hi d _ {}
    · exact withTable_registerEffect h fun _ => recordMode_registerEffect hi d _

theorem execSetFps_registerEffect {a : Byte} {r : U32} {s t : State} (h : execSetFps r s = .next t) :
    RegisterEffect (.setFps a r) s t := by
  refine gated_registerEffect h fun h => ?_
  cases h
  split
  · obtain hq | ⟨hst, vt, hr⟩ := timingEnd_measureTiming r s
    · exact .quiet hq
    · exact .timing a r vt rfl hst hr
  · exact .quiet (keepsRegisters_raise _ s)

theorem streamCommand_registerEffect {i : Instr} {T : TableId} {onOk : State → State} {s t : State}
    (h : gated s (withTable T onOk s) = .next t) (hon : ∀ b, KeepsRegisters b (onOk b)) : RegisterEffect i s t :=
  gated_registerEffect h fun h => withTable_registerEffect h fun b hb => .quiet (hb.trans (hon b))

/-- A `TE` ends the command in `OP` (R204, R208). -/
theorem execTe_registerEffect {v : Byte} {s t : State} (h : execTe s = .next t) : RegisterEffect (.te v) s t := by
  have hleave : KeepsRegisters s (leaveTable s) := {}
  unfold execTe at h
  split at h
  · cases h
  · split at h
    · cases h
    · next hr =>
      cases h
      obtain ⟨d, hop, -, rfl⟩ | ⟨d, hop, -, rfl⟩ | ⟨-, rfl⟩ | ⟨-, rfl⟩ := resumeCommand_cases hr
      · exact recordMode_registerEffect (s := s) (.inr (.inr ⟨v, rfl, .inl hop, rfl⟩)) d .configured hleave
      · exact recordMode_registerEffect (s := s) (.inr (.inr ⟨v, rfl, .inr hop, rfl⟩)) d _ hleave
      · exact .quiet {}
      · exact .quiet {}

theorem execTd_registerEffect {i : Instr} {v : Byte} {s t : State} (h : execTd v s = .next t) :
    RegisterEffect i s t := by
  unfold execTd at h
  split at h
  · cases h
  · cases h
    exact .quiet {}

theorem execTw_registerEffect {i : Instr} {a v : Byte} {s t : State} (h : execTw a v s = .next t) :
    RegisterEffect i s t := by
  unfold execTw at h
  split at h
  · cases h
  · cases h
    unfold walkWrite memWrite
    cases writeReply s 0 a v with
    | ok => exact .quiet {}
    | err => exact .quiet {}

/-- What each instruction writes of `ATTR`, `RES0`, `RES1`, `ACTIVE_MODE`, `CUR_FPS` and `LOG`. -/
theorem exec_registerEffect {i : Instr} {s t : State} (h : exec i s = .next t) : RegisterEffect i s t := by
  cases i with
  | detect =>
    cases h
    exact .quiet (keepsRegisters_detectIn s)
  | init => exact execInit_registerEffect h
  | resize => exact execResize_registerEffect h
  | streamOn | finishChange => exact streamCommand_registerEffect (onOk := finishStreamOn) h fun _ => {}
  | streamOff | prepareChange => exact streamCommand_registerEffect (onOk := finishStreamOff) h fun _ => {}
  | setFps => exact execSetFps_registerEffect h
  | setIntegrationTime =>
    refine gated_registerEffect h fun h => ?_
    cases h
    exact .quiet (keepsRegisters_writeExposure ..)
  | setAnalogGain a v =>
    refine gated_registerEffect h fun h => ?_
    cases h
    exact .results _ _ (.inr (.inr (.inr ⟨a, v, rfl⟩))) (keepsRegisters_writeGain ..)
  | gainEncode a v =>
    cases h
    exact .results _ _ (.inl ⟨a, v, rfl⟩) (keepsRegisters_done _)
  | gainDecode a v =>
    cases h
    exact .results _ _ (.inr (.inl ⟨a, v, rfl⟩)) (keepsRegisters_done _)
  | dgainEncode a v =>
    cases h
    exact .results _ _ (.inr (.inr (.inl ⟨a, v, rfl⟩))) (keepsRegisters_done _)
  | setDigitalGain | getBlackLevel =>
    cases h
    exact .quiet (keepsRegisters_done s)
  | unknown =>
    cases h
    exact .quiet ((keepsRegisters_setLog _ s).trans (keepsRegisters_done _))
  | te => exact execTe_registerEffect h
  | td => exact execTd_registerEffect h
  | tw => exact execTw_registerEffect h

/-! ## The statements about writers -/

/-- No instruction clears a bit of `LOG`: none of the three writes touches it. -/
theorem exec_log_sticky {i : Instr} {s t : State} (h : exec i s = .next t) : s.log &&& t.log = s.log := by
  cases exec_registerEffect h with
  | quiet h | results _ _ _ h | mode _ _ _ _ _ h | timing _ _ _ _ _ h => exact h.log

theorem detach_log (s : State) : (detach s).log = s.log := by
  rw [detach, releaseHandles_eq]

/-- Settles O18, by the cases of a step: an entry or a command runs an instruction, waiting and detach leave `LOG`. -/
theorem logFlagsAreSticky : Obligations.LogFlagsAreSticky := by
  refine ⟨fun _ _ _ => exec_log_sticky, fun s t h hna => ?_⟩
  obtain ⟨_, _, _, -, -, -, hx⟩ | ⟨-, rfl⟩ | ⟨_, _, -, -, -, hx⟩ | ⟨rest, htp, -, hh, -, -⟩ | ⟨rest, -, -, -, rfl⟩ :=
    step_next_cases h
  · exact exec_log_sticky hx
  · exact BitVec.and_self
  · exact (exec_log_sticky hx :)
  · exact absurd (congrArg List.head? hh) (hna htp)
  · rw [detach_log]
    exact BitVec.and_self

/-- Settles O19, by the effect of the instruction: only `retime` writes `ATTR`. -/
theorem attributesWrittenOnlyBySetFps : Obligations.AttributesWrittenOnlyBySetFps := by
  intro i s t h
  cases exec_registerEffect h with
  | quiet h | results _ _ _ h | mode _ _ _ _ _ h => exact .inl h.attr
  | timing a r vt hi hst h =>
    have hattr : t.attr = timedAttr vt s.attr := h.attr
    exact .inr ⟨⟨a, r, hi⟩, hst, by rw [hattr]; rfl⟩

/-- Settles O20, by the effect of the instruction. -/
theorem registerWriters : Obligations.RegisterWriters := by
  intro i s t h
  cases exec_registerEffect h with
  | quiet h => exact ⟨.inl ⟨h.res0, h.res1⟩, .inl h.activeMode, .inl h.curFps⟩
  | results r0 r1 hi h => exact ⟨.inr hi, .inl h.activeMode, .inl h.curFps⟩
  | timing a r vt hi hst h =>
    exact ⟨.inl ⟨h.res0, h.res1⟩, .inl h.activeMode, .inr ⟨hst, .inr (.inr (.inl ⟨a, r, hi, h.curFps⟩))⟩⟩
  | mode k d p hi hst h =>
    have hmode : t.activeMode = k.setWidth 8 := h.activeMode
    refine ⟨.inl ⟨h.res0, h.res1⟩, .inr ⟨hst, ?_⟩, .inr ⟨hst, ?_⟩⟩
    · obtain ⟨a, hi⟩ | ⟨a, hi⟩ | ⟨v, hi, hop, rfl⟩ := hi
      · exact .inl ⟨a, k, hi, hmode⟩
      · exact .inr (.inl ⟨a, k, hi, hmode⟩)
      · exact .inr (.inr ⟨v, hi, hop, hmode⟩)
    · obtain ⟨a, hi⟩ | ⟨a, hi⟩ | ⟨v, hi, hop, -⟩ := hi
      · exact .inl ⟨a, k, hi⟩
      · exact .inr (.inl ⟨a, k, hi⟩)
      · exact .inr (.inr (.inr ⟨v, hi, hop⟩))

end Sys2Proof.Machine

/-! `INIT` and `RESIZE` when they succeed (spec 10_state.md R36, R37; 42_mode_state.md R176, R177, R185 (1)): the mode's
table is applied or not, then mode and rate are recorded and the host is notified. -/

namespace Sys2Proof.Machine

/-- The notification and the response of a command that succeeds (R37, R92). -/
theorem done_notify_eq (s : State) :
    done (notify s) = { s with
      status := 0#32, busy := false
      trace := s.trace ++ [.notify (videoDescriptor s), .resp 0#32 s.res0 s.res1] } := by
  simp [done, finish, notify, emit]

theorem phaseAfterResize_eq (p : Phase) : phaseAfterResize p = if p = .uninitialized then .configured else p := by
  cases p <;> rfl

/-- After a `RESIZE` past the gate a mode may be active (R171, R177). -/
theorem phaseAfterResize_of_detected {s : State} (h : detected s = true) :
    phaseAfterResize s.phase = .configured ∨ phaseAfterResize s.phase = .streaming := by
  obtain ⟨hpre, hfail⟩ := (detected_iff s).1 h
  cases hp : s.phase with
  | preDetect => exact absurd hp hpre
  | detectFailed => exact absurd hp hfail
  | uninitialized | configured => exact .inl rfl
  | streaming => exact .inr rfl

/-! ## `RESIZE` past the gate -/

/-- The table of another mode is applied (R177). -/
theorem execResize_of_other {k : U32} {s : State} {d : ModeDescriptor} (hd : detected s = true)
    (hk : s.cfg.modes[k.toNat]? = some d) (hne : s.activeMode.toNat ≠ k.toNat) :
    execResize k s = withTable (.mode k.toNat) (finishResize k d) s := by
  simp only [execResize, gated_of_detected hd, modeOperand, hk, if_neg hne]

/-- No table is applied for the active mode (R36, R177). -/
theorem execResize_of_active {k : U32} {s : State} {d : ModeDescriptor} (hd : detected s = true)
    (hk : s.cfg.modes[k.toNat]? = some d) (heq : s.activeMode.toNat = k.toNat) :
    execResize k s = .next (finishResize k d s) := by
  simp only [execResize, gated_of_detected hd, modeOperand, hk, if_pos heq]

/-- The end of a `RESIZE`, the VideoDescriptor written out (R37, R177). -/
theorem finishResize_recorded {k : U32} {s : State} {d : ModeDescriptor} (hl : s.cfg.modes.length ≤ 255)
    (hk : s.cfg.modes[k.toNat]? = some d) :
    finishResize k d s = { s with
      activeMode := k.setWidth 8, curFps := d.frameRate
      phase := if s.phase = .uninitialized then .configured else s.phase
      status := 0#32, busy := false
      trace := s.trace ++ [.notify ⟨k.setWidth 8, d.width, d.height, d.pixelFormatCode, d.colorSpace, d.frameRate⟩,
        .resp 0#32 s.res0 s.res1] } := by
  rw [finishResize_eq, done_notify_eq, phaseAfterResize_eq,
    videoDescriptor_recorded (s := recordMode k d _ s) hl hk rfl rfl]
  rfl

/-- Settles O31: past the gate `RESIZE` is its table, if any, and then `finishResize`. -/
theorem resizeAppliesTableUnlessActive : Obligations.ResizeAppliesTableUnlessActive := by
  intro a k s d hd hl hk
  constructor
  · intro hne hend hacc
    have htable : tableOf s.cfg (.mode k.toNat) = some d.table := by rw [tableOf, hk]; rfl
    calc exec (.resize a k) s = withTable (.mode k.toNat) (finishResize k d) s := execResize_of_other hd hk hne
      _ = _ := by
        rw [withTable_accepted htable hend hacc]
        exact congrArg Host.Outcome.next (finishResize_recorded hl hk)
  · intro heq
    have hmode : k.setWidth 8 = s.activeMode :=
      BitVec.eq_of_toNat_eq ((modeId_byte hl hk).1.trans heq.symm)
    calc exec (.resize a k) s = .next (finishResize k d s) := execResize_of_active hd hk heq
      _ = _ := by rw [finishResize_recorded hl hk, hmode]

/-! ## The same mode twice -/

theorem gated_success {s t : State} {o : Host.Outcome State Fault Refusal} (h : gated s o = .next t)
    (hst : t.status = 0#32) : detected s = true ∧ o = .next t := by
  obtain ⟨-, rfl⟩ | h := gated_next_cases h
  · cases hst
  · exact h

theorem withTable_success {T : TableId} {onOk : State → State} {s t : State} (h : withTable T onOk s = .next t)
    (hst : t.status = 0#32) : ∃ entries, tableOf s.cfg T = some entries ∧ t = onOk { s with
      tp := none, writes := s.writes + (tableWrites entries).length, trace := s.trace ++ tableEvents entries } := by
  obtain h | ⟨_, _, rfl⟩ := withTable_next_cases h
  · exact h
  · cases hst

/-- The command added the events `evs` to the trace of `s`, then recorded mode `k` of CFG, notified and succeeded in
`t`. -/
structure ModeCommandEnd (k : U32) (d : ModeDescriptor) (evs : List Event) (s t : State) : Prop where
  mode : s.cfg.modes[k.toNat]? = some d
  ends : ∃ (b : State) (p : Phase), t = done (notify (recordMode k d p b)) ∧ (p = .configured ∨ p = .streaming) ∧
    b.cfg = s.cfg ∧ b.trace = s.trace ++ evs

/-- A table of mode `k` was applied, then the mode recorded with a phase that `f` gives (R176, R177). -/
theorem modeCommandEnd_of_table {k : U32} {d : ModeDescriptor} {onOk : State → State} {s t : State} (f : Phase → Phase)
    (hk : s.cfg.modes[k.toNat]? = some d) (h : withTable (.mode k.toNat) onOk s = .next t) (hst : t.status = 0#32)
    (hf : f s.phase = .configured ∨ f s.phase = .streaming)
    (hon : ∀ b : State, onOk b = done (notify (recordMode k d (f b.phase) b))) :
    ModeCommandEnd k d (tableEvents d.table) s t := by
  obtain ⟨entries, hT, rfl⟩ := withTable_success h hst
  obtain rfl : d.table = entries := by simpa [tableOf, hk] using hT
  exact ⟨hk, _, f s.phase, hon _, hf, rfl, rfl⟩

theorem execInit_success {k : U32} {s t : State} (h : execInit k s = .next t) (hst : t.status = 0#32) :
    ∃ d, ModeCommandEnd k d (tableEvents d.table) s t := by
  obtain ⟨-, h⟩ := gated_success h hst
  split at h
  · cases h
    cases hst
  · next d hk => exact ⟨d, modeCommandEnd_of_table (fun _ => .configured) hk h hst (.inl rfl) (finishInit_eq k d)⟩

theorem execResize_success {k : U32} {s t : State} (h : execResize k s = .next t) (hst : t.status = 0#32) :
    ∃ d, ModeCommandEnd k d (if s.activeMode.toNat = k.toNat then [] else tableEvents d.table) s t := by
  obtain ⟨hd, hbody⟩ := gated_success h hst
  have hphase := phaseAfterResize_of_detected hd
  split at hbody
  · cases hbody
    cases hst
  · next d hk =>
    refine ⟨d, ?_⟩
    by_cases heq : s.activeMode.toNat = k.toNat
    · rw [execResize_of_active hd hk heq] at h
      cases h
      rw [if_pos heq]
      exact ⟨hk, s, _, finishResize_eq k d s, hphase, rfl, (List.append_nil _).symm⟩
    · rw [execResize_of_other hd hk heq] at h
      rw [if_neg heq]
      exact modeCommandEnd_of_table phaseAfterResize hk h hst hphase (finishResize_eq k d)

/-- A `RESIZE` to the mode just recorded only notifies (R36, R177, R185 (1)). -/
theorem execResize_after_modeCommandEnd {k : U32} {d : ModeDescriptor} {evs : List Event} {s t : State}
    (hl : s.cfg.modes.length ≤ 255) (h : ModeCommandEnd k d evs s t) :
    execResize k t = .next { t with trace := t.trace ++ [.notify (videoDescriptor t), .resp 0#32 t.res0 t.res1] } := by
  obtain ⟨hk, b, p, rfl, hp, hcfg, -⟩ := h
  have hd : detected (done (notify (recordMode k d p b))) = true := by
    rcases hp with rfl | rfl <;> rfl
  have hk' : (done (notify (recordMode k d p b))).cfg.modes[k.toNat]? = some d := hcfg ▸ hk
  have hsame : finishResize k d (done (notify (recordMode k d p b))) =
      done (notify (done (notify (recordMode k d p b)))) := by
    rcases hp with rfl | rfl <;> rfl
  rw [execResize_of_active hd hk' (modeId_byte hl hk).1, hsame, done_notify_eq (done _)]
  rfl

/-- The trace of a command that recorded a mode ends with the notification and the response. -/
theorem ModeCommandEnd.trace_eq {k : U32} {d : ModeDescriptor} {evs : List Event} {s t : State}
    (h : ModeCommandEnd k d evs s t) :
    t.trace = s.trace ++ evs ++ [.notify (videoDescriptor t), .resp 0#32 t.res0 t.res1] := by
  obtain ⟨-, b, p, rfl, -, -, htr⟩ := h
  rw [← htr, done_notify_eq]
  rfl

/-- Settles O36: the first command ends by recording the mode, after its table or with none, and `RESIZE` to that mode
finds it active. -/
theorem sameModeTwiceWritesTableOnce : Obligations.SameModeTwiceWritesTableOnce := by
  intro a b k i s t hi hl h hst
  have hend : ∃ d, ModeCommandEnd k d
      (if i = .resize a k ∧ s.activeMode.toNat = k.toNat then [] else tableEvents d.table) s t := by
    rcases hi with rfl | rfl
    · simpa using execInit_success h hst
    · simpa using execResize_success h hst
  obtain ⟨d, hend⟩ := hend
  exact ⟨⟨d, hend.mode, hend.trace_eq⟩, execResize_after_modeCommandEnd hl hend⟩

end Sys2Proof.Machine

/-! A step that runs an instruction, waits or attaches, the reset state, and the status register file (spec 10_state.md R20
to R24, R37, R40, R41; 70_reset_and_hazards.md R260). Attach needs `cfgOk`, the check the model runs, to be
`WellFormedCfg`, R11 in the spec's terms; the part of it that takes an argument is the `max_again` conversion. -/

namespace Sys2Proof.Machine

/-! ## A step -/

/-- An idle SCC accepts the command word presented and runs its command (R21, R23, R91). -/
theorem step_command {s : State} {w : CommandWord} {rest : List HostInput} (htp : s.tp = none) (hb : s.busy = false)
    (hh : s.host = .command w :: rest) : step s = exec (decodeCommand w) (accept w { s with host := rest }) := by
  simp [step, htp, hb, hh]

/-- The entry `TP` points at is run (R201). -/
theorem step_entry {s : State} {p : TablePtr} {entries : List EntryWord} {e : EntryWord} (hp : s.tp = some p)
    (ht : tableOf s.cfg p.table = some entries) (he : entries[p.index]? = some e) :
    step s = exec (decodeEntry e) s := by
  simp [step, hp, fetchEntry, ht, he]

/-- An idle SCC attaches when the host says so (R260). -/
theorem step_attach {s : State} {rest : List HostInput} (htp : s.tp = none) (hb : s.busy = false)
    (hh : s.host = .attach :: rest) : step s = attach { s with host := rest } := by
  simp [step, htp, hb, hh]

/-- Settles O7, by the two cases of a step that runs an instruction. -/
theorem stepRunsDecodedInstruction : Obligations.StepRunsDecodedInstruction :=
  ⟨fun _ _ _ => step_command, fun _ _ _ _ => step_entry⟩

/-- Settles O8: with no input nothing is taken, and with `BUSY` set the host's list is not looked at. -/
theorem stepWaitsWithoutInput : Obligations.StepWaitsWithoutInput := by
  intro s htp hwait
  cases hb : s.busy with
  | true => simp [step, htp, hb]
  | false =>
    have hh : s.host = [] := hwait.resolve_right (by simp [hb])
    simp [step, htp, hb, hh]

/-! ## Well-formed configurations -/

theorem addressField_eq_end_iff (e : EntryWord) : addressField e = 0xFF#8 ↔ e.toNat / 256 = 0xFF := by
  have hlt := e.isLt
  rw [← BitVec.toNat_inj]
  simp only [addressField, BitVec.extractLsb'_toNat, Nat.shiftRight_eq_div_pow, BitVec.toNat_ofNat]
  omega

theorem tableHasEnd_iff (t : List EntryWord) : tableHasEnd t = true ↔ ∃ e ∈ t, e.toNat / 256 = 0xFF := by
  simp [tableHasEnd, addressField_eq_end_iff]

/-- The thresholds bound the power of every mantissa, 0 included, whose power they hit (R125). -/
theorem mantissa_pow_bounds {m s : Nat} (hm : m ≤ 15) (hs : s ≤ 32) :
    2 ^ (4 * 2 ^ s + threshold m s) ≤ (16 + m) ^ 2 ^ s ∧ (16 + m) ^ 2 ^ s < 2 ^ (4 * 2 ^ s + threshold m s + 1) := by
  rcases Nat.eq_zero_or_pos m with rfl | hpos
  · have hzero : threshold 0 s = 0 := by simp [threshold, log2Tab]
    have hpow : (16 + 0) ^ 2 ^ s = 2 ^ (4 * 2 ^ s) := by rw [pow_mul]; norm_num
    rw [hzero, hpow]
    exact ⟨le_rfl, Nat.pow_lt_pow_right (by decide) (by omega)⟩
  · obtain ⟨hl, hu⟩ := threshold_bracket hpos hm hs
    exact ⟨hl.le, hu⟩

/-- `RELOG` is the default `LOG2` of the magnitude of its code: the power of the magnitude lies between the two powers of
two that the thresholds give (R126 (1)). -/
theorem log2Floor_dlin {gfp s : Nat} (hg : 4 ≤ gfp) (hs : s ≤ 32) (c : Byte) :
    log2Floor gfp (dlin gfp c) s = relog c s := by
  have hm := codeMantissa_lt c
  rw [dlin_eq hg, relog_eq]
  generalize codeExponent c = e
  generalize codeMantissa c = m at hm
  obtain ⟨x, hx⟩ : ∃ x, gfp + e = 4 + x := ⟨gfp + e - 4, by omega⟩
  have hoctave : 2 ^ (gfp + e) = 16 * 2 ^ x := by rw [hx, pow_add]; norm_num
  have hmant : 16 * 2 ^ x ≤ (16 + m) * 2 ^ x := Nat.mul_le_mul_right _ (by omega)
  have hexp : gfp * 2 ^ s + e * 2 ^ s = 4 * 2 ^ s + x * 2 ^ s := by rw [← Nat.add_mul, hx, Nat.add_mul]
  rw [show gfp + e - 4 = x by omega]
  rcases Nat.lt_or_ge (2 ^ gfp) ((16 + m) * 2 ^ x) with hlt | hle
  · obtain ⟨hl, hu⟩ := mantissa_pow_bounds (show m ≤ 15 by omega) hs
    have hpow : ((16 + m) * 2 ^ x) ^ 2 ^ s = (16 + m) ^ 2 ^ s * 2 ^ (x * 2 ^ s) := by rw [mul_pow, ← pow_mul]
    rw [log2Floor_of_bounds (k := 4 * 2 ^ s + threshold m s + x * 2 ^ s) hlt]
    · omega
    · rw [hpow, pow_add]
      exact Nat.mul_le_mul_right _ hl
    · rw [hpow, Nat.add_right_comm, pow_add]
      exact Nat.mul_lt_mul_of_pos_right hu (Nat.two_pow_pos _)
  · have he : e = 0 := by
      have := (Nat.pow_le_pow_iff_right (by decide : 1 < 2)).1 (hoctave.le.trans (hmant.trans hle))
      omega
    subst he
    have hzero : m = 0 := by
      have := Nat.le_of_mul_le_mul_right (hle.trans hoctave.le) (Nat.two_pow_pos x)
      omega
    subst hzero
    rw [log2Floor, if_pos hle]
    simp [threshold, log2Tab]

/-- `logOfCode` is the `LOG2` of the magnitude, whatever `NUMERICS` is (R126 (1)). -/
theorem logOfCode_eq {gfp s : Nat} (hg : 4 ≤ gfp) (hs : s ≤ 32) (nm : Numerics) (c : Byte) :
    logOfCode nm gfp c s = log2 nm gfp (dlin gfp c) s := by
  cases nm with
  | exactFloor => exact (log2Floor_dlin hg hs c).symm
  | custom id => rfl

/-- The codes checked are those with exponent 0 to 3 (R7, R94). -/
theorem dlin_ofNat {gfp k : Nat} (hg : 4 ≤ gfp) (hk : k < 64) :
    dlin gfp (BitVec.ofNat 8 k) = 2 ^ (gfp + k / 16 - 4) * (16 + k % 16) := by
  have hbyte : (BitVec.ofNat 8 k).toNat = k := by simp; omega
  rw [dlin_eq hg, codeExponent_eq, codeMantissa_eq, hbyte, Nat.mul_comm]

/-- The check of the `max_again` conversion, in the spec's terms (R7, R11, R121). -/
theorem maxAgainOk_iff {c : Cfg} (hg : 4 ≤ c.gfp) (hs : c.ispShift ≤ 28) :
    maxAgainOk c = true ↔
      (∃ e m : Nat, e ≤ 3 ∧ m ≤ 15 ∧ c.maxAgainNative.toNat = 2 ^ (c.gfp + e - 4) * (16 + m)) ∧
        c.maxAgainIsp.toNat = log2 c.numerics c.gfp c.maxAgainNative.toNat c.ispShift := by
  have hcheck : maxAgainOk c = true ↔ ∃ k < 64, dlin c.gfp (BitVec.ofNat 8 k) = c.maxAgainNative.toNat ∧
      log2 c.numerics c.gfp (dlin c.gfp (BitVec.ofNat 8 k)) c.ispShift = c.maxAgainIsp.toNat := by
    simp [maxAgainOk, logOfCode_eq hg (hs.trans (by decide))]
  rw [hcheck]
  constructor
  · rintro ⟨k, hk, hnative, hisp⟩
    refine ⟨⟨k / 16, k % 16, by omega, by omega, ?_⟩, ?_⟩
    · rw [← hnative, dlin_ofNat hg hk]
    · rw [← hisp, hnative]
  · rintro ⟨⟨e, m, he, hm, hnative⟩, hisp⟩
    have hdlin : dlin c.gfp (BitVec.ofNat 8 (16 * e + m)) = c.maxAgainNative.toNat := by
      rw [dlin_ofNat hg (by omega), hnative, show (16 * e + m) / 16 = e by omega, show (16 * e + m) % 16 = m by omega]
    exact ⟨16 * e + m, by omega, hdlin, by rw [hdlin, hisp]⟩

/-- What the model checks at attach is R11 in the spec's terms. -/
theorem cfgOk_iff (c : Cfg) : cfgOk c = true ↔ WellFormedCfg c := by
  simp only [cfgOk, Bool.and_eq_true, decide_eq_true_eq, List.all_eq_true, tableHasEnd_iff, and_assoc]
  constructor
  · rintro ⟨hg, hg', hs, hmax, hp, hp', hf, hf', hf'', hn, hn', hm, hon, hoff⟩
    obtain ⟨hnative, hisp⟩ := (maxAgainOk_iff hg hs).1 hmax
    exact ⟨⟨hg, hg'⟩, hs, hnative, hisp, ⟨hp, by omega⟩, ⟨hf, hf', hf''⟩, ⟨hn, hn'⟩, hm, hon, hoff⟩
  · rintro ⟨⟨hg, hg'⟩, hs, hnative, hisp, ⟨hp, hp'⟩, ⟨hf, hf', hf''⟩, ⟨hn, hn'⟩, hm, hon, hoff⟩
    have hmax := (maxAgainOk_iff hg hs).2 ⟨hnative, hisp⟩
    exact ⟨hg, hg', hs, hmax, hp, by omega, hf, hf', hf'', hn, hn', hm, hon, hoff⟩

/-! ## Attach and reset -/

theorem attach_refused {s : State} (h : ¬WellFormedCfg s.cfg) : attach s = .refused .illFormedCfg :=
  if_neg (mt (cfgOk_iff s.cfg).1 h)

theorem attach_loads {s : State} (h : WellFormedCfg s.cfg) : attach s = .next (loadAttachValues (releaseHandles s)) :=
  if_pos ((cfgOk_iff s.cfg).2 h)

/-- Settles O9: attach decides by `cfgOk`, which is R11, and then releases and loads. -/
theorem attachLoadsResetValues : Obligations.AttachLoadsResetValues := by
  intro s rest htp hb hh
  rw [step_attach htp hb hh]
  refine ⟨fun hwf => attach_refused hwf, fun hwf => ⟨0#8, 0#8, 0#32, ?_⟩⟩
  rw [attach_loads (s := { s with host := rest }) hwf, releaseHandles_eq]
  rfl

theorem cfgOk_refCfg : cfgOk refCfg = true := by decide

/-- Reset is a state that an attach has just loaded (R41). -/
theorem reset_eq_loadAttachValues : State.reset = loadAttachValues State.reset := rfl

/-- Settles O13: REFCFG is well formed, and what an attach loads has the invariant. -/
theorem resetSatisfiesInv : Obligations.ResetSatisfiesInv := by
  rw [Obligations.ResetSatisfiesInv, reset_eq_loadAttachValues]
  exact inv_loadAttachValues cfgOk_refCfg

/-! ## The status register file -/

theorem videoDescriptor_of_none {s : State} (h : s.activeMode = 0xFF#8) :
    videoDescriptor s = ⟨0xFF#8, 0#32, 0#32, 0#32, 0#32, s.curFps⟩ := by
  simp [videoDescriptor, activeDescriptor, h]

theorem videoDescriptor_of_active {s : State} {d : ModeDescriptor} (h : s.activeMode ≠ 0xFF#8)
    (hd : s.cfg.modes[s.activeMode.toNat]? = some d) :
    videoDescriptor s = ⟨s.activeMode, d.width, d.height, d.pixelFormatCode, d.colorSpace, s.curFps⟩ := by
  simp [videoDescriptor, activeDescriptor, h, hd]

/-- Indices 0x20 to 0x23 are the mode's members of the VideoDescriptor (R40). -/
theorem statusRegister_video (s : State) :
    [0x20#8, 0x21#8, 0x22#8, 0x23#8].map (statusRegister s) =
      [(videoDescriptor s).width, (videoDescriptor s).height, (videoDescriptor s).pixelFormatCode,
       (videoDescriptor s).colorSpace] := rfl

/-- Indices 0x10 to 0x1C are `ATTR`, in the order of R30 (R40). -/
theorem statusRegister_attr (s : State) :
    [0x10#8, 0x11#8, 0x12#8, 0x13#8, 0x14#8, 0x15#8, 0x16#8, 0x17#8, 0x18#8, 0x19#8, 0x1A#8, 0x1B#8, 0x1C#8].map
        (statusRegister s) =
      [s.attr.minIntegrationTime, s.attr.minIntegrationTimeNative, s.attr.maxIntegrationTime,
       s.attr.maxIntegrationTimeNative, s.attr.integrationTimeLimit, s.attr.maxAgain, s.attr.maxDgain,
       s.attr.integrationTimeApplyDelay, s.attr.againApplyDelay, s.attr.dgainApplyDelay, s.attr.totalWidth,
       s.attr.totalHeight, s.attr.oneLineDuration] := rfl

/-- Index 7 is the two handle bits (R29, R40). -/
theorem statusRegister_held (s : State) :
    (statusRegister s 0x07#8).toNat = 2 * s.pwdnHeld.toNat + s.rstHeld.toNat := by
  have h : statusRegister s 0x07#8 =
      (BitVec.ofBool s.pwdnHeld ++ BitVec.ofBool s.rstHeld : BitVec (1 + 1)).setWidth 32 := rfl
  rw [h]
  cases s.pwdnHeld <;> cases s.rstHeld <;> rfl

/-- No register stands at an index of the gaps (R40). -/
theorem statusRegister_gap {s : State} {i : Byte}
    (h : (8 ≤ i.toNat ∧ i.toNat < 0x10) ∨ (0x1D ≤ i.toNat ∧ i.toNat < 0x20) ∨ 0x24 ≤ i.toNat) :
    statusRegister s i = 0#32 := by
  unfold statusRegister
  split
  case h_26 => rfl
  all_goals omega

/-- Settles O11, by evaluation of the attach values of REFCFG. -/
theorem resetStatusRegisters : Obligations.ResetStatusRegisters := by
  refine ⟨by decide, ?_, ?_⟩
  · rw [statusRegister_attr]
    rfl
  · rw [statusRegister_video, videoDescriptor_of_none rfl]

/-- Settles O12, index range by index range. -/
theorem hostReadsStatusRegisters : Obligations.HostReadsStatusRegisters := by
  intro s
  refine ⟨⟨rfl, rfl, rfl, ?_, ?_, rfl, ?_, statusRegister_held s⟩, statusRegister_attr s, fun hnone => ?_,
    fun d hne hd => ?_, fun i => statusRegister_gap⟩
  · have h : statusRegister s 0x03#8 = (phaseCode s.phase).setWidth 32 := rfl
    rw [h]
    cases s.phase <;> rfl
  · exact BitVec.toNat_setWidth_of_le (by decide)
  · exact BitVec.toNat_setWidth_of_le (by decide)
  · rw [statusRegister_video, videoDescriptor_of_none hnone]
    exact ⟨rfl, rfl⟩
  · rw [statusRegister_video, videoDescriptor_of_active hne hd]
    exact ⟨rfl, rfl⟩

end Sys2Proof.Machine

/-! The event trace and the answers drawn (spec 20_memory.md R61, R69). `Draws s evs t` is the balance between two states:
the trace grew by `evs`, and each counter by the number of accesses of its kind in `evs`. Every port primitive keeps the
balance, balances compose, and a step is composed of port primitives and register writes. -/

namespace Sys2Proof.Machine

/-! ## Counting accesses -/

/-- The event is a pin request. -/
def isGpioRequest : Event → Bool
  | .gpioReq _ _ => true
  | .rd _ _ | .wr _ _ _ | .sleep _ | .gpioSet _ _ | .gpioRel _ | .notify _ | .resp _ _ _ => false

/-- The pin requests, in order, in a list of events. -/
def gpioRequests (evs : List Event) : List Event := evs.filter isGpioRequest

@[simp] theorem readAddresses_append (evs evs' : List Event) :
    readAddresses (evs ++ evs') = readAddresses evs ++ readAddresses evs' := List.filterMap_append

@[simp] theorem writeAddresses_append (evs evs' : List Event) :
    writeAddresses (evs ++ evs') = writeAddresses evs ++ writeAddresses evs' := List.filterMap_append

@[simp] theorem gpioRequests_append (evs evs' : List Event) :
    gpioRequests (evs ++ evs') = gpioRequests evs ++ gpioRequests evs' := List.filter_append ..

/-! ## The balance of events and answers -/

/-- From `s` to `t` the trace grew by `evs`, and an answer was drawn for each access in `evs` and for nothing else. -/
structure Draws (s : State) (evs : List Event) (t : State) : Prop where
  trace : t.trace = s.trace ++ evs := by rfl
  reads : t.reads = s.reads + (readAddresses evs).length := by rfl
  writes : t.writes = s.writes + (writeAddresses evs).length := by rfl
  gpios : t.gpios = s.gpios + (gpioRequests evs).length := by rfl

/-- From `s` to `t` the trace was only appended to, in balance with the answers drawn. -/
def Accounted (s t : State) : Prop := ∃ evs, Draws s evs t

theorem Draws.trans {s t u : State} {evs evs' : List Event} (h : Draws s evs t) (h' : Draws t evs' u) :
    Draws s (evs ++ evs') u where
  trace := by rw [h'.trace, h.trace, List.append_assoc]
  reads := by rw [h'.reads, h.reads, readAddresses_append, List.length_append, Nat.add_assoc]
  writes := by rw [h'.writes, h.writes, writeAddresses_append, List.length_append, Nat.add_assoc]
  gpios := by rw [h'.gpios, h.gpios, gpioRequests_append, List.length_append, Nat.add_assoc]

theorem Accounted.trans {s t u : State} : Accounted s t → Accounted t u → Accounted s u
  | ⟨_, h⟩, ⟨_, h'⟩ => ⟨_, h.trans h'⟩

/-- Registers may be written: neither the trace nor a counter moves. -/
theorem Accounted.of_registers {s t : State} (htr : t.trace = s.trace := by rfl) (hr : t.reads = s.reads := by rfl)
    (hw : t.writes = s.writes := by rfl) (hg : t.gpios = s.gpios := by rfl) : Accounted s t :=
  ⟨[], by rw [htr, List.append_nil], hr, hw, hg⟩

theorem Accounted.refl (s : State) : Accounted s s := .of_registers

/-! ## Port primitives and the end of a command -/

theorem accounted_afterWrite (a v : Byte) (s : State) : Accounted s (afterWrite a v s) := ⟨[.wr a v _], {}⟩

theorem accounted_memRead {a : Byte} {s b : State} {r : ReadReply} (h : memRead a s = (r, b)) : Accounted s b := by
  obtain rfl : afterRead a s = b := congrArg Prod.snd h
  exact ⟨[.rd a _], {}⟩

theorem accounted_memWrite {a v : Byte} {s b : State} {r : Reply} (h : memWrite a v s = (r, b)) : Accounted s b := by
  obtain rfl : afterWrite a v s = b := congrArg Prod.snd h
  exact accounted_afterWrite a v s

theorem accounted_gpioRelease (pin : Option Nat) (s : State) : Accounted s (gpioRelease pin s) := by
  cases pin with
  | none => exact .refl s
  | some p => exact ⟨[.gpioRel p], {}⟩

theorem accounted_notify (s : State) : Accounted s (notify s) := ⟨[.notify _], {}⟩

theorem accounted_done (s : State) : Accounted s (done s) := ⟨[.resp _ _ _], {}⟩

theorem accounted_raise (k : ErrorKind) (s : State) : Accounted s (raise k s) := ⟨[.resp _ _ _], {}⟩

/-- The end of a command that notifies and succeeds: two events more, no access (R37, R92). -/
theorem Accounted.done_notify {s b : State} (h : Accounted s b) : Accounted s (done (notify b)) :=
  (h.trans (accounted_notify b)).trans (accounted_done _)

/-! ## Tables -/

/-- A table's pin requests: none. -/
theorem gpioRequests_tableEvents (entries : List EntryWord) : gpioRequests (tableEvents entries) = [] := by
  obtain ⟨-, -, hkinds⟩ := tableEvents_writes entries
  refine List.filter_eq_nil_iff.2 fun e he => ?_
  obtain ⟨-, hpin⟩ := hkinds e he
  cases e with
  | gpioReq => cases hpin
  | rd | wr | sleep | gpioSet | gpioRel | notify | resp => simp [isGpioRequest]

/-- A table draws one write answer per `TW` entry (R201, R207). -/
theorem draws_table (entries : List EntryWord) (s : State) :
    Draws s (tableEvents entries) { s with
      tp := none, writes := s.writes + (tableWrites entries).length, trace := s.trace ++ tableEvents entries } := by
  obtain ⟨hwrites, hreads, -⟩ := tableEvents_writes entries
  exact { reads := by simp [hreads], writes := by simp [hwrites], gpios := by simp [gpioRequests_tableEvents] }

theorem accounted_withTable {T : TableId} {onOk : State → State} {s t : State} (h : withTable T onOk s = .next t)
    (hon : ∀ b, Accounted b (onOk b)) : Accounted s t := by
  obtain ⟨entries, -, -, -, heq⟩ | ⟨_, before, _, a, v, -, -, -, -, -, -, -, heq⟩ | ⟨-, heq⟩ := withTable_cases T onOk s
  · rw [heq] at h
    cases h
    exact Accounted.trans ⟨_, draws_table entries s⟩ (hon _)
  · rw [heq] at h
    cases h
    have hrefused := (draws_table before s).trans (evs' := [.wr a v .err])
      (u := { s with
        tp := none, writes := s.writes + (tableWrites before).length + 1
        trace := s.trace ++ tableEvents before ++ [.wr a v .err] }) {}
    exact Accounted.trans ⟨_, hrefused⟩ (accounted_raise _ _)
  · rw [heq] at h
    cases h

/-- Refused by the gate, a command only responds (R170). -/
theorem accounted_gated {s t : State} {o : Host.Outcome State Fault Refusal} (h : gated s o = .next t)
    (ho : o = .next t → Accounted s t) : Accounted s t := by
  obtain ⟨-, rfl⟩ | ⟨-, h⟩ := gated_next_cases h
  · exact accounted_raise _ s
  · exact ho h

theorem accounted_finishInit (k : U32) (d : ModeDescriptor) (s : State) : Accounted s (finishInit k d s) :=
  Accounted.done_notify (b := recordMode k d .configured s) .of_registers

theorem accounted_finishResize (k : U32) (d : ModeDescriptor) (s : State) : Accounted s (finishResize k d s) :=
  Accounted.done_notify (b := recordMode k d _ s) .of_registers

theorem accounted_finishStreamOn (s : State) : Accounted s (finishStreamOn s) := ⟨[.resp _ _ _], {}⟩

theorem accounted_finishStreamOff (s : State) : Accounted s (finishStreamOff s) := ⟨[.resp _ _ _], {}⟩

theorem accounted_execInit {k : U32} {s t : State} (h : execInit k s = .next t) : Accounted s t := by
  refine accounted_gated h fun h => ?_
  split at h
  · cases h
    exact accounted_raise _ s
  · next d _ => exact accounted_withTable h (accounted_finishInit k d)

theorem accounted_execResize {k : U32} {s t : State} (h : execResize k s = .next t) : Accounted s t := by
  refine accounted_gated h fun h => ?_
  split at h
  · cases h
    exact accounted_raise _ s
  · next d _ =>
    split at h
    · cases h
      exact accounted_finishResize k d s
    · exact accounted_withTable h (accounted_finishResize k d)

/-! ## `DETECT` -/

/-- The levels and waits of a pulse are no accesses (R173). -/
theorem accesses_pulse (p : Nat) (seq : List (Level × Nat)) :
    readAddresses (seq.flatMap fun x => [.gpioSet p x.1, .sleep x.2]) = [] ∧
      writeAddresses (seq.flatMap fun x => [.gpioSet p x.1, .sleep x.2]) = [] ∧
      gpioRequests (seq.flatMap fun x => [.gpioSet p x.1, .sleep x.2]) = [] := by
  induction seq with
  | nil => exact ⟨rfl, rfl, rfl⟩
  | cons x rest ih => exact ih

/-- A pin's stage requests the pin once, if there is one, and makes no bus access (R173, R174). -/
theorem accesses_pinEvents (pin : Option Nat) (answer : Reply) (seq : List (Level × Nat)) :
    readAddresses (pinEvents pin answer seq) = [] ∧ writeAddresses (pinEvents pin answer seq) = [] ∧
      (gpioRequests (pinEvents pin answer seq)).length = pinRequests pin := by
  cases pin with
  | none => exact ⟨rfl, rfl, rfl⟩
  | some p =>
    cases answer with
    | err => exact ⟨rfl, rfl, rfl⟩
    | ok =>
      obtain ⟨hrd, hwr, hreq⟩ := accesses_pulse p seq
      exact ⟨hrd, hwr, congrArg (fun evs => evs.length + 1) hreq⟩

theorem accounted_afterPins (s : State) : Accounted s (afterPins s) := by
  obtain ⟨hrd, hwr, hreq⟩ := accesses_pinEvents s.cfg.resetPin (resetAnswer s)
    [(.high, s.cfg.tRst1), (.low, s.cfg.tRst2), (.high, s.cfg.tRst3)]
  obtain ⟨hrd', hwr', hreq'⟩ := accesses_pinEvents s.cfg.pwdnPin (pwdnAnswer s) s.cfg.pwdnSeq
  exact ⟨_, {
    trace := List.append_assoc ..
    reads := by simp [afterPins, hrd, hrd']
    writes := by simp [afterPins, hwr, hwr']
    gpios := by simp [afterPins, hreq, hreq', Nat.add_assoc] }⟩

theorem accounted_failDetect (k : ErrorKind) (s : State) : Accounted s (failDetect k s) := ⟨[.resp _ _ _], {}⟩

theorem accounted_checkIdentityLow (s : State) : Accounted s (checkIdentityLow s) := by
  unfold checkIdentityLow
  split
  · next hrd => exact (accounted_memRead hrd).trans (accounted_failDetect ..)
  · next hrd =>
    refine (accounted_memRead hrd).trans ?_
    split
    · exact ⟨[.resp _ _ _], {}⟩
    · exact accounted_failDetect ..

theorem accounted_identityCheck (s : State) : Accounted s (identityCheck s) := by
  unfold identityCheck
  split
  · next hrd => exact (accounted_memRead hrd).trans (accounted_failDetect ..)
  · next hrd =>
    refine (accounted_memRead hrd).trans ?_
    split
    · exact accounted_checkIdentityLow _
    · exact accounted_failDetect ..

theorem accounted_detectIn (s : State) : Accounted s (detectIn s) := by
  unfold detectIn
  split
  · rw [pwdnPulse_resetPulse]
    exact (accounted_afterPins s).trans (accounted_identityCheck _)
  · exact accounted_done s
  · exact accounted_done s
  · exact accounted_done s
  · exact accounted_raise _ s

/-! ## The timing and gain commands -/

theorem accounted_commitTiming (r vt : U32) (s : State) : Accounted s (commitTiming r vt s) :=
  Accounted.done_notify (b := retime r vt s) .of_registers

theorem accounted_writeHalves (r vt : U32) (s : State) : Accounted s (writeHalves r vt s) := by
  unfold writeHalves
  split
  · next hlo => exact (accounted_memWrite hlo).trans (accounted_raise ..)
  · next hlo =>
    refine (accounted_memWrite hlo).trans ?_
    split
    · next hhi => exact (accounted_memWrite hhi).trans (accounted_raise ..)
    · next hhi => exact (accounted_memWrite hhi).trans (accounted_commitTiming ..)

theorem accounted_programTiming (r vt : U32) (s : State) : Accounted s (programTiming r vt s) := by
  unfold programTiming
  split
  · next hrd => exact (accounted_memRead hrd).trans (accounted_raise ..)
  · next hrd =>
    refine (accounted_memRead hrd).trans ?_
    split
    · next hwr => exact (accounted_memWrite hwr).trans (accounted_raise ..)
    · next hwr => exact (accounted_memWrite hwr).trans (accounted_writeHalves ..)

theorem accounted_computeTiming (r : U32) (hts : Nat) (s : State) : Accounted s (computeTiming r hts s) := by
  unfold computeTiming
  split
  · exact ⟨[.resp _ _ _], {}⟩
  · exact accounted_programTiming ..

theorem accounted_measureTiming (r : U32) (s : State) : Accounted s (measureTiming r s) := by
  unfold measureTiming
  split
  · next hlo => exact (accounted_memRead hlo).trans (accounted_raise ..)
  · next hlo =>
    refine (accounted_memRead hlo).trans ?_
    split
    · next hhi => exact (accounted_memRead hhi).trans (accounted_raise ..)
    · next hhi => exact (accounted_memRead hhi).trans (accounted_computeTiming ..)

theorem accounted_writeExposure (v : U32) (s : State) : Accounted s (writeExposure v s) := by
  have hwrites := (accounted_afterWrite s.cfg.expoLAddr (lowByte v) s).trans
    (accounted_afterWrite s.cfg.expoHAddr (highByte v) _)
  unfold writeExposure
  exact iteInduction (motive := Accounted s) (fun _ => hwrites.trans (accounted_raise ..))
    (fun _ => hwrites.trans (accounted_done _))

theorem accounted_writeGain (code : Byte) (achieved : U32) (s : State) : Accounted s (writeGain code achieved s) := by
  unfold writeGain
  split
  · next hw => exact (accounted_memWrite hw).trans ⟨[.resp _ _ _], {}⟩
  · next hw => exact (accounted_memWrite hw).trans ⟨[.resp _ _ _], {}⟩

/-! ## Every step -/

theorem accounted_command {i : Instr} {s t : State} (hi : isCommand i = true) (h : exec i s = .next t) :
    Accounted s t := by
  cases i with
  | detect =>
    cases h
    exact accounted_detectIn s
  | init => exact accounted_execInit h
  | resize => exact accounted_execResize h
  | streamOn | finishChange =>
    exact accounted_gated h fun h => accounted_withTable h accounted_finishStreamOn
  | streamOff | prepareChange =>
    exact accounted_gated h fun h => accounted_withTable h accounted_finishStreamOff
  | setFps _ r =>
    refine accounted_gated h fun h => ?_
    cases h
    split
    · exact accounted_measureTiming r s
    · exact accounted_raise _ s
  | setIntegrationTime _ v =>
    refine accounted_gated h fun h => ?_
    cases h
    exact accounted_writeExposure v s
  | setAnalogGain =>
    refine accounted_gated h fun h => ?_
    cases h
    exact accounted_writeGain _ _ s
  | setDigitalGain | getBlackLevel | gainEncode | gainDecode | dgainEncode | unknown =>
    cases h
    exact ⟨[.resp _ _ _], {}⟩
  | te | td | tw => cases hi

/-- A command resumed at the end of its table makes no further access (R204, R208). -/
theorem accounted_resumeCommand {s t : State} (h : resumeCommand s = some t) : Accounted s t := by
  obtain ⟨d, -, -, rfl⟩ | ⟨d, -, -, rfl⟩ | ⟨-, rfl⟩ | ⟨-, rfl⟩ := resumeCommand_cases h
  · exact accounted_finishInit _ d s
  · exact accounted_finishResize _ d s
  · exact accounted_finishStreamOn s
  · exact accounted_finishStreamOff s

theorem accounted_entry {e : EntryWord} {s t : State} {p : TablePtr} (hp : s.tp = some p)
    (h : exec (decodeEntry e) s = .next t) : Accounted s t := by
  obtain hr | ⟨-, n, rfl⟩ | ⟨-, a, v, rfl⟩ | ⟨a, v, rfl⟩ := exec_entry_cases hp h
  · exact Accounted.trans .of_registers (accounted_resumeCommand hr)
  · exact ⟨[.sleep n], {}⟩
  · exact ⟨[.wr a v _], {}⟩
  · exact (accounted_afterWrite a v s).trans ⟨[.resp _ _ _], {}⟩

/-- Each handle held is released, its bit cleared (R260, R262). -/
theorem accounted_releaseHandles (s : State) : Accounted s (releaseHandles s) := by
  have hrst : Accounted s (if s.rstHeld then setRstHeld false (gpioRelease s.cfg.resetPin s) else s) :=
    iteInduction (fun _ => (accounted_gpioRelease _ s).trans .of_registers) (fun _ => .refl s)
  refine hrst.trans ?_
  exact iteInduction (motive := Accounted _) (fun _ => (accounted_gpioRelease _ _).trans .of_registers)
    (fun _ => .refl _)

theorem accounted_step {s t : State} (h : step s = .next t) : Accounted s t := by
  have htake (rest : List HostInput) : Accounted s { s with host := rest } := .of_registers
  obtain ⟨p, -, e, hp, -, -, hx⟩ | ⟨-, rfl⟩ | ⟨w, rest, -, -, -, hx⟩ | ⟨rest, -, -, -, -, rfl⟩ |
    ⟨rest, -, -, -, rfl⟩ := step_next_cases h
  · exact accounted_entry hp hx
  · exact .refl t
  · exact Accounted.trans .of_registers (accounted_command (isCommand_decodeCommand w) hx)
  · exact ((htake rest).trans (accounted_releaseHandles _)).trans .of_registers
  · exact ((htake rest).trans (accounted_releaseHandles _)).trans .of_registers

/-- Settles O17: the balance that every step keeps, each counter's growth read as a difference. -/
theorem traceOnlyGrows : Obligations.TraceOnlyGrows := by
  intro s t h
  obtain ⟨evs, htrace, hreads, hwrites, hgpios⟩ := accounted_step h
  refine ⟨evs, htrace, ?_, ?_, ?_⟩
  · rw [hreads, Nat.add_sub_cancel_left]
  · rw [hwrites, Nat.add_sub_cancel_left]
  · rw [hgpios, Nat.add_sub_cancel_left]
    rfl

end Sys2Proof.Machine

/-! Decoding and encoding (spec 30_encoding.md R90 to R99). A word is read through its fields only, and the fields of a
packed word are the ones it was packed from, so each statement is about the rows of one format: for format C
`decodeFields` at an opcode, for format T the kind that the address byte selects. -/

namespace Sys2Proof

/-! ## Fields as arithmetic on the word -/

theorem opField_eq_ofNat (w : CommandWord) : opField w = BitVec.ofNat 8 (w.toNat / 2 ^ 40) :=
  congrArg (BitVec.ofNat 8) (Nat.shiftRight_eq_div_pow ..)

theorem arg1Field_eq_ofNat (w : CommandWord) : arg1Field w = BitVec.ofNat 8 (w.toNat / 2 ^ 32) :=
  congrArg (BitVec.ofNat 8) (Nat.shiftRight_eq_div_pow ..)

theorem arg0Field_eq_ofNat (w : CommandWord) : arg0Field w = BitVec.ofNat 32 w.toNat := rfl

theorem addressField_eq_ofNat (e : EntryWord) : addressField e = BitVec.ofNat 8 (e.toNat / 256) :=
  congrArg (BitVec.ofNat 8) (Nat.shiftRight_eq_div_pow ..)

theorem valueField_eq_ofNat (e : EntryWord) : valueField e = BitVec.ofNat 8 e.toNat := rfl

/-! ## Rows of format C -/

theorem decodeCommand_packCommand (op a : Byte) (v : U32) : decodeCommand (packCommand op a v) = decodeFields op a v := by
  simp [decodeCommand]

/-- An opcode with no row of its own is `UNKNOWN` (R97). -/
theorem decodeFields_of_unnamed {op : Byte} (hop : namedOpcodes.contains op = false) (a : Byte) (v : U32) :
    decodeFields op a v = .unknown op a v := by
  have hne : ∀ b ∈ namedOpcodes, op ≠ b := fun b hb heq => by simp [heq, hb] at hop
  simp only [namedOpcodes, List.forall_mem_cons] at hne
  simp [decodeFields, hne]

/-- Each row's instruction is well formed, and its word has the opcode that selects the row (R96, R97). -/
theorem encode_decodeFields (op a : Byte) (v : U32) :
    (decodeFields op a v).wellFormed = true ∧ encode (decodeFields op a v) = .command (packCommand op a v) := by
  obtain ⟨rfl, h⟩ | ⟨rfl, h⟩ | ⟨rfl, h⟩ | ⟨rfl, h⟩ | ⟨rfl, h⟩ | ⟨rfl, h⟩ | ⟨rfl, h⟩ | ⟨rfl, h⟩ | ⟨rfl, h⟩ | ⟨rfl, h⟩ |
    ⟨rfl, h⟩ | ⟨rfl, h⟩ | ⟨rfl, h⟩ | ⟨rfl, h⟩ | ⟨rfl, h⟩ | ⟨hop, h⟩ := decodeFields_cases op a v <;> rw [h]
  pick_goal 16
  · exact ⟨congrArg not hop, rfl⟩
  all_goals exact ⟨rfl, rfl⟩

/-- The opcode lies below, between or above the three classes of R96. -/
def InOpcodeGap (op : Nat) : Prop := op = 0 ∨ (0x04 < op ∧ op < 0x10) ∨ (0x17 < op ∧ op < 0x20) ∨ 0x22 < op

/-- No named opcode lies in a gap: the fifteen are looked at one by one. -/
theorem namedOpcodes_contains_of_gap {op : Byte} (hgap : InOpcodeGap op.toNat) : namedOpcodes.contains op = false := by
  have hnamed : ∀ b ∈ namedOpcodes, ¬ InOpcodeGap b.toNat := by
    unfold InOpcodeGap
    decide
  rw [List.contains_eq_mem, decide_eq_false_iff_not]
  exact fun hmem => hnamed op hmem hgap

/-! ## Rows of format T -/

theorem decodeEntry_te {e : EntryWord} (he : addressField e = 0xFF#8) : decodeEntry e = .te (valueField e) :=
  if_pos he

theorem decodeEntry_td {e : EntryWord} (he : addressField e = 0xFE#8) : decodeEntry e = .td (valueField e) := by
  simp [decodeEntry, he]

theorem decodeEntry_tw {e : EntryWord} (hff : addressField e ≠ 0xFF#8) (hfe : addressField e ≠ 0xFE#8) :
    decodeEntry e = .tw (addressField e) (valueField e) := by
  simp [decodeEntry, hff, hfe]

/-- Each kind's instruction is well formed, and its entry is the one decoded (R98, R99). -/
theorem encode_decodeEntry (e : EntryWord) :
    (decodeEntry e).wellFormed = true ∧ encode (decodeEntry e) = .entry e := by
  have hpack := congrArg Encoded.entry (packEntry_fields e)
  obtain ⟨-, ha, h⟩ | ⟨-, ha, h⟩ | ⟨-, hff, hfe, h⟩ := Machine.entryKind_cases e <;> rw [h]
  · exact ⟨rfl, by rwa [ha] at hpack⟩
  · exact ⟨rfl, by rwa [ha] at hpack⟩
  · exact ⟨by simp [Instr.wellFormed, hff, hfe], hpack⟩

/-! ## The statements about the encoding -/

/-- Settles O1: a named command's row is read off at its opcode, an entry's kind at its address byte; for `UNKNOWN` and
`TW` well-formedness says that no other row matches. -/
theorem decodeEncodeRoundTrip : Obligations.DecodeEncodeRoundTrip := by
  intro i hwf
  cases i with
  | detect a v | init a v | streamOn a v | streamOff a v | setIntegrationTime a v | setAnalogGain a v
  | setDigitalGain a v | getBlackLevel a v | resize a v | prepareChange a v | finishChange a v | setFps a v
  | gainEncode a v | gainDecode a v | dgainEncode a v => exact decodeCommand_packCommand _ a v
  | unknown op a v =>
    have hop : namedOpcodes.contains op = false := by simpa [Instr.wellFormed] using hwf
    exact (decodeCommand_packCommand op a v).trans (decodeFields_of_unnamed hop a v)
  | te v => simp [encode, decode, decodeEntry_te]
  | td v => simp [encode, decode, decodeEntry_td]
  | tw a v =>
    obtain ⟨hfe, hff⟩ : a ≠ 0xFE#8 ∧ a ≠ 0xFF#8 := by simpa [Instr.wellFormed] using hwf
    simp [encode, decode, decodeEntry_tw, hff, hfe]

/-- Settles O2, by the rows of each format: the row's opcode, or the kind's address byte, is the word's own. -/
theorem encodeDecodeRoundTrip : Obligations.EncodeDecodeRoundTrip := by
  intro e
  cases e with
  | command w =>
    have hrow := encode_decodeFields (opField w) (arg1Field w) (arg0Field w)
    rwa [packCommand_fields] at hrow
  | entry e => exact encode_decodeEntry e

/-- Settles O3: at each named opcode the decoder's rows are evaluated; in the gaps there is no row. -/
theorem opcodeSelectsCommand : Obligations.OpcodeSelectsCommand := by
  intro w op a v
  have hfields : decodeCommand w = decodeFields (BitVec.ofNat 8 op) a v := by
    rw [decodeCommand, opField_eq_ofNat, arg1Field_eq_ofNat, arg0Field_eq_ofNat]
  have row (n : Nat) (hn : op = n) : decodeCommand w = decodeFields (BitVec.ofNat 8 n) a v := hn ▸ hfields
  refine ⟨row 0x01, row 0x02, row 0x03, row 0x04, row 0x10, row 0x11, row 0x12, row 0x13, row 0x14, row 0x15, row 0x16,
    row 0x17, row 0x20, row 0x21, row 0x22, fun hgap => ?_⟩
  have hop : (BitVec.ofNat 8 op).toNat = op := Nat.mod_eq_of_lt (Nat.div_lt_of_lt_mul w.isLt)
  have hunnamed := namedOpcodes_contains_of_gap (op := BitVec.ofNat 8 op) (hop.symm ▸ hgap)
  exact hfields.trans (decodeFields_of_unnamed hunnamed a v)

/-- Settles O4: the address byte is the word divided by 256, and an address up to 0xFD is neither 0xFE nor 0xFF. -/
theorem addressByteSelectsEntry : Obligations.AddressByteSelectsEntry := by
  intro e a v
  have haddr : addressField e = BitVec.ofNat 8 a := addressField_eq_ofNat e
  have byte (n : Nat) (hn : a = n) : addressField e = BitVec.ofNat 8 n := hn ▸ haddr
  refine ⟨fun ha => decodeEntry_te (byte 0xFF ha), fun ha => decodeEntry_td (byte 0xFE ha), fun ha => ?_⟩
  have hne (n : Nat) (hlt : 0xFD < n ∧ n < 256) : addressField e ≠ BitVec.ofNat 8 n := by
    intro h
    have hnat : a % 2 ^ 8 = n % 2 ^ 8 := congrArg BitVec.toNat (haddr.symm.trans h)
    omega
  rw [← haddr]
  exact decodeEntry_tw (hne 0xFF (by decide)) (hne 0xFE (by decide))

/-- Settles O5: the decoder evaluated at the words that the spec writes out. -/
theorem specWordsDecode : Obligations.SpecWordsDecode := by
  unfold Obligations.SpecWordsDecode
  decide

end Sys2Proof

/-! The Gain Codec (spec 40_gain_codec.md). Under the default numerics everything rests on two facts: the top five bits
of the floored power count the thresholds passed (R126 (2)), and `RELOG` of the code so found is at most the gain it was
found from. The contract of R122 is met clause by clause: the exact-floor pair by its defining inequalities, a free pair
by the bounds of the octave a value lies in. -/

namespace Sys2Proof.Machine

/-! ## The code of a clamped gain -/

/-- `RELOG` stays in the octave of its exponent, and so fits 32 bits (R126 (1)). -/
theorem relog_lt {s : Nat} (hs : s ≤ 28) (code : Byte) : relog code s < 2 ^ 32 := by
  have he := codeExponent_lt code
  have hm := codeMantissa_lt code
  have hth : threshold (codeMantissa code) s < 2 ^ s := threshold_lt (by omega) (by omega)
  have hpow : 2 ^ s ≤ 2 ^ 28 := Nat.pow_le_pow_right (by decide) hs
  have hoctave : codeExponent code * 2 ^ s ≤ 15 * 2 ^ s := Nat.mul_le_mul_right _ (by omega)
  rw [relog_eq]
  omega

theorem threshold_zero (s : Nat) : threshold 0 s = 0 := by simp [threshold, log2Tab]

/-- The threshold of the mantissa reached is not above the fraction. -/
theorem threshold_mant_le (f s : Nat) : threshold (mant f s) s ≤ f := by
  rcases Nat.eq_zero_or_pos (mant f s) with hzero | hpos
  · simp [hzero, threshold_zero]
  · exact ((le_mant_iff hpos (mant_le f s)).1 le_rfl).le

/-- A larger fraction passes no fewer thresholds. -/
theorem mant_mono {f f' s : Nat} (h : f ≤ f') : mant f s ≤ mant f' s := by
  rcases Nat.eq_zero_or_pos (mant f s) with hzero | hpos
  · omega
  · have hpassed := (le_mant_iff hpos (mant_le f s)).1 le_rfl
    exact (le_mant_iff hpos (mant_le f s)).2 (hpassed.trans_le h)

/-- From 5 fractional bits on no two thresholds coincide: they already differ in their top five bits. -/
theorem threshold_lt_iff {j m s : Nat} (hj : j ≤ 15) (hm : m ≤ 15) (h5 : 5 ≤ s) (hs : s ≤ 32) :
    threshold j s < threshold m s ↔ j < m := by
  constructor
  · intro h
    by_contra hc
    exact absurd (threshold_mono (s := s) (not_lt.1 hc) hj) (not_le.2 h)
  · intro h
    have htop : threshold j 5 < threshold m 5 :=
      (by decide : ∀ m < 16, ∀ j < m, threshold j 5 < threshold m 5) m (by omega) j h
    have hcut (k : Nat) : threshold k 5 = threshold k s / 2 ^ (s - 5) := by
      simp only [threshold, Nat.shiftRight_eq_div_pow]
      rw [Nat.div_div_eq_div_mul, ← pow_add, show 32 - s + (s - 5) = 32 - 5 by omega]
    rw [hcut, hcut] at htop
    exact Nat.lt_of_div_lt_div htop

/-- A fraction that is itself a threshold passes exactly the thresholds below it. -/
theorem mant_threshold {m s : Nat} (hm : m ≤ 15) (h5 : 5 ≤ s) (hs : s ≤ 32) : mant (threshold m s) s = m - 1 := by
  have hreach (j : Nat) (h1 : 1 ≤ j) (h2 : j ≤ 15) : j ≤ mant (threshold m s) s ↔ j < m :=
    (le_mant_iff h1 h2).trans (threshold_lt_iff h2 hm h5 hs)
  have hle := mant_le (threshold m s) s
  have hup := hreach (mant (threshold m s) s)
  have hlow := hreach (m - 1)
  omega

/-- The code found, as a number: exponent and mantissa of the largest code when the window is left (R129). -/
theorem closedCode_toNat (g1 s : Nat) :
    (closedCode g1 s).toNat = if 4 ≤ g1 / 2 ^ s then 63 else 16 * (g1 / 2 ^ s) + mant (g1 % 2 ^ s) s := by
  have hm := mant_le (g1 % 2 ^ s) s
  rw [closedCode_eq]
  split
  · rfl
  · exact gainCode_toNat (by omega) (by omega)

/-- The code found, by its fields (R129). -/
theorem closedCode_fields (g1 s : Nat) :
    codeExponent (closedCode g1 s) = (if 4 ≤ g1 / 2 ^ s then 3 else g1 / 2 ^ s) ∧
      codeMantissa (closedCode g1 s) = if 4 ≤ g1 / 2 ^ s then 15 else mant (g1 % 2 ^ s) s := by
  have hm := mant_le (g1 % 2 ^ s) s
  rw [codeExponent_eq, codeMantissa_eq, closedCode_toNat]
  split <;> omega

/-- The re-logged code is never above the clamped gain. -/
theorem relog_closedCode_le {s : Nat} (hs : s ≤ 32) (g1 : Nat) : relog (closedCode g1 s) s ≤ g1 := by
  obtain ⟨he, hm⟩ := closedCode_fields g1 s
  rw [relog_eq, he, hm]
  by_cases hwindow : 4 ≤ g1 / 2 ^ s
  · have hth : threshold 15 s < 2 ^ s := threshold_lt le_rfl hs
    have := (Nat.le_div_iff_mul_le (Nat.two_pow_pos s)).1 hwindow
    simp only [if_pos hwindow]
    omega
  · simp only [if_neg hwindow]
    calc g1 / 2 ^ s * 2 ^ s + threshold (mant (g1 % 2 ^ s) s) s
        ≤ g1 / 2 ^ s * 2 ^ s + g1 % 2 ^ s := Nat.add_le_add_left (threshold_mant_le _ _) _
      _ = g1 := Nat.div_add_mod' g1 (2 ^ s)

/-- A larger clamped gain never gets a smaller code: the octave decides first, then the thresholds passed. -/
theorem closedCode_mono {g1 g1' : Nat} (h : g1 ≤ g1') (s : Nat) :
    (closedCode g1 s).toNat ≤ (closedCode g1' s).toNat := by
  have hoctave : g1 / 2 ^ s ≤ g1' / 2 ^ s := Nat.div_le_div_right h
  have hm := mant_le (g1 % 2 ^ s) s
  rw [closedCode_toNat, closedCode_toNat]
  rcases hoctave.lt_or_eq with hlt | heq
  · split <;> split <;> omega
  · have hfrac : g1 % 2 ^ s ≤ g1' % 2 ^ s := by
      have hd := Nat.div_add_mod g1 (2 ^ s)
      have hd' := Nat.div_add_mod g1' (2 ^ s)
      rw [heq] at hd
      omega
    have := mant_mono (s := s) hfrac
    rw [heq]
    split <;> omega

/-- A gain that is itself a re-logged code lies in the octave of the code, at the code's threshold. -/
theorem relog_octave {s : Nat} (hs : s ≤ 32) (code : Byte) :
    relog code s / 2 ^ s = codeExponent code ∧ relog code s % 2 ^ s = threshold (codeMantissa code) s := by
  have hm := codeMantissa_lt code
  have hth : threshold (codeMantissa code) s < 2 ^ s := threshold_lt (by omega) hs
  rw [relog_eq, Nat.div_mod_unique (Nat.two_pow_pos s)]
  exact ⟨by ring, hth⟩

/-! ## The encoding commands' functions under the default numerics -/

/-- `ENC` works on the gain and shift already clamped, and cuts nothing of the achieved gain (R129, R131). -/
theorem encodeGain_exactFloor {c : Cfg} (hnm : c.numerics = .exactFloor) (maxAgain g : U32) (shift : Nat) :
    (encodeGain c maxAgain g shift).1 = closedCode (min g.toNat maxAgain.toNat) (min shift 28) ∧
      (encodeGain c maxAgain g shift).2.toNat =
        relog (closedCode (min g.toNat maxAgain.toNat) (min shift 28)) (min shift 28) := by
  simp only [encodeGain, hnm, encClosed, shiftOperand, BitVec.toNat_ofNat, true_and]
  exact Nat.mod_eq_of_lt (relog_lt (Nat.min_le_right _ _) _)

theorem decodeGain_exactFloor {c : Cfg} (hnm : c.numerics = .exactFloor) (code : Byte) (shift : Nat) :
    (decodeGain c code shift).1.toNat = relog code (min shift 28) := by
  simp only [decodeGain, hnm, logOfCode, shiftOperand, BitVec.toNat_ofNat]
  exact Nat.mod_eq_of_lt (relog_lt (Nat.min_le_right _ _) _)

/-- The thresholds counted over all sixteen mantissas, mantissa 0 left out (R126 (2)). -/
theorem mant_eq_count (f s : Nat) :
    mant f s = ((List.range 16).filter (fun j => decide (1 ≤ j ∧ log2Tab.getD j 0 / 2 ^ (32 - s) < f))).length := by
  rw [show List.range 16 = 0 :: List.range' 1 15 from rfl, List.filter_cons_of_neg (by simp), mant]
  congr 1
  refine List.filter_congr fun j hj => ?_
  have h1 : 1 ≤ j := (List.mem_range'_1.1 hj).1
  simp [threshold, Nat.shiftRight_eq_div_pow, h1]

/-- Settles O43: the fields of the code, with the thresholds and the mantissa count written out. -/
theorem defaultEncodeFormula : Obligations.DefaultEncodeFormula := by
  intro c maxAgain g shift hnm s1 g1 n m e
  obtain ⟨hcode, hachieved⟩ := encodeGain_exactFloor hnm maxAgain g shift
  obtain ⟨he, hm⟩ := closedCode_fields g1 s1
  have hmant : codeMantissa (closedCode g1 s1) = m := by rw [hm, mant_eq_count]
  refine ⟨?_, ?_⟩
  · rw [hcode, code_toNat, ← hmant]
    exact congrArg (16 * · + _) he
  · rw [hachieved, relog_eq, ← hmant]
    simp only [threshold, Nat.shiftRight_eq_div_pow]
    exact congrArg (· * 2 ^ s1 + _) he

/-- Settles O53: the re-logged code is at most the clamped gain. -/
theorem achievedNeverAboveRequest : Obligations.AchievedNeverAboveRequest := by
  intro c maxAgain g shift hnm
  rw [(encodeGain_exactFloor hnm maxAgain g shift).2]
  exact relog_closedCode_le (by omega) _

/-- Settles O54: the clamp and the code are both monotone. -/
theorem encodeIsMonotone : Obligations.EncodeIsMonotone := by
  intro c maxAgain g g' shift hnm h
  rw [(encodeGain_exactFloor hnm maxAgain g shift).1, (encodeGain_exactFloor hnm maxAgain g' shift).1]
  exact closedCode_mono (min_le_min_right _ h) _

/-- Settles O52: the decoded value lies at the threshold of the code's mantissa, which it does not pass, while it passes
every smaller one. -/
theorem decodeThenEncodeLosesOneStep : Obligations.DecodeThenEncodeLosesOneStep := by
  intro c maxAgain code shift hnm h5 hexp hclamp
  have hm := codeMantissa_lt code
  obtain ⟨hn, hf⟩ := relog_octave (s := min shift 28) (by omega) code
  rw [(encodeGain_exactFloor hnm _ _ _).1, min_eq_left hclamp, decodeGain_exactFloor hnm]
  have hback : (closedCode (relog code (min shift 28)) (min shift 28)).toNat =
      16 * codeExponent code + (codeMantissa code - 1) := by
    rw [closedCode_toNat, hn, hf, if_neg (by omega), mant_threshold (by omega) (by omega) (by omega)]
  have hcode := code_toNat code
  rw [← BitVec.toNat_inj, hback]
  split
  · omega
  · rw [BitVec.toNat_sub_of_le (BitVec.le_def.2 (by simp; omega))]
    simp
    omega

/-! ## The closed form and the source's algorithm -/

/-- Settles O48: `RELOG` is the default `LOG2` of the magnitude at every fractional width up to 32. -/
theorem relogIsFlooredLogarithm : Obligations.RelogIsFlooredLogarithm := fun _ _ code hg hs =>
  ⟨log2Floor_dlin hg (by omega) code, relog_lt hs code⟩

/-- The start of an octave is the magnitude of its mantissa 0. -/
theorem two_pow_octave {gfp : Nat} (hg : 4 ≤ gfp) (n : Nat) : 2 ^ (gfp + n) = 16 * 2 ^ (gfp + n - 4) := by
  rw [show gfp + n = 4 + (gfp + n - 4) by omega, pow_add, Nat.add_sub_cancel_left]
  rfl

/-- The top five bits of the floored power are 16 plus the number of thresholds passed, in every octave: the power reaches
the magnitude of a mantissa exactly when the fraction passes its threshold (R126 (2)). -/
theorem exp2Floor_top_bits {gfp g s : Nat} (hg : 4 ≤ gfp) (hs : s ≤ 32) :
    exp2Floor gfp g s / 2 ^ (gfp + g / 2 ^ s - 4) = 16 + mant (g % 2 ^ s) s := by
  have hreach (j : Nat) (hj : j ≤ 15) :
      16 + j ≤ exp2Floor gfp g s / 2 ^ (gfp + g / 2 ^ s - 4) ↔ j = 0 ∨ j ≤ mant (g % 2 ^ s) s := by
    rw [Nat.le_div_iff_mul_le (Nat.two_pow_pos _), mantissa_le_exp2Floor_iff hg hs hj]
    rcases Nat.eq_zero_or_pos j with hzero | hpos
    · simp [hzero]
    · rw [le_mant_iff hpos hj]
  have hlt : exp2Floor gfp g s / 2 ^ (gfp + g / 2 ^ s - 4) < 32 := by
    rw [Nat.div_lt_iff_lt_mul (Nat.two_pow_pos _)]
    calc exp2Floor gfp g s < 2 ^ (gfp + g / 2 ^ s + 1) := exp2Floor_lt
      _ = 32 * 2 ^ (gfp + g / 2 ^ s - 4) := by rw [pow_succ, two_pow_octave hg]; omega
  have hm := mant_le (g % 2 ^ s) s
  have hlow := (hreach 0 (by omega)).2 (.inl rfl)
  have hmant := (hreach (mant (g % 2 ^ s) s) hm).2 (.inr le_rfl)
  have htop := hreach (exp2Floor gfp g s / 2 ^ (gfp + g / 2 ^ s - 4) - 16) (by omega)
  omega

/-- Settles O49, which holds in every octave. -/
theorem mantissaCountsThresholds : Obligations.MantissaCountsThresholds := fun _ _ _ hg hs _ =>
  exp2Floor_top_bits hg (by omega)

/-- Scan and mantissa of a magnitude whose octave is in the window (R127, steps 3 to 5). -/
theorem codeOfMagnitude_eq {gfp n l : Nat} (hn : n ≤ 3) (hlow : 2 ^ (gfp + n) ≤ l) (hlt : l < 2 ^ (gfp + n + 1)) :
    codeOfMagnitude gfp l = gainCode n (l / 2 ^ (gfp + n - 4) % 16) := by
  rw [codeOfMagnitude, scanIndex_eq hn hlow hlt, Nat.shiftRight_eq_div_pow]

/-- A magnitude in the window is kept (R128). -/
theorem windowed_of_mem {gfp l : Nat} (hlow : 2 ^ gfp ≤ l) (hlt : l < 2 ^ (gfp + 4)) : windowed gfp l = l := by
  simp only [windowed, Nat.shiftLeft_eq, Nat.one_mul]
  rw [max_eq_left hlow, min_eq_left (Nat.le_sub_one_of_lt hlt)]

/-- A magnitude above the window is taken as the window's last (R128). -/
theorem windowed_of_above {gfp l : Nat} (h : 2 ^ (gfp + 4) ≤ l) : windowed gfp l = 2 ^ (gfp + 4) - 1 := by
  simp only [windowed, Nat.shiftLeft_eq, Nat.one_mul]
  exact min_eq_right ((Nat.sub_le _ _).trans (h.trans (le_max_left _ _)))

/-- The window's last magnitude has the largest code (R127, R128). -/
theorem codeOfMagnitude_window_last {gfp : Nat} (hg : 4 ≤ gfp) :
    codeOfMagnitude gfp (2 ^ (gfp + 4) - 1) = gainCode 3 15 := by
  have hpos := Nat.two_pow_pos (gfp + 3 - 4)
  have htop : (2 ^ (gfp + 4) - 1) / 2 ^ (gfp + 3 - 4) = 31 := by
    rw [Nat.div_eq_iff hpos, show gfp + 4 = gfp + 3 + 1 from rfl, pow_succ, two_pow_octave hg]
    omega
  have hlow : 2 ^ (gfp + 3) ≤ 2 ^ (gfp + 4) - 1 :=
    Nat.le_sub_one_of_lt (Nat.pow_lt_pow_right (by decide) (by omega))
  rw [codeOfMagnitude_eq le_rfl hlow (Nat.sub_one_lt (Nat.two_pow_pos _).ne'), htop]

/-- The algorithm finds the code of the closed form: inside the window by the top bits of the power, above it the largest
code (R127, R128, R129). -/
theorem codeOfMagnitude_exp2Floor {gfp s : Nat} (hg : 4 ≤ gfp) (hs : s ≤ 32) (g1 : Nat) :
    codeOfMagnitude gfp (windowed gfp (exp2Floor gfp g1 s)) = closedCode g1 s := by
  have hlow := exp2Floor_lower gfp g1 s
  have hpow {a b : Nat} (h : a ≤ b) : 2 ^ a ≤ 2 ^ b := Nat.pow_le_pow_right (by decide) h
  rw [closedCode_eq]
  by_cases hwindow : 4 ≤ g1 / 2 ^ s
  · rw [windowed_of_above ((hpow (Nat.add_le_add_left hwindow gfp)).trans hlow), codeOfMagnitude_window_last hg,
      if_pos hwindow, if_pos hwindow]
  · have hlt := exp2Floor_lt.trans_le (hpow (show gfp + g1 / 2 ^ s + 1 ≤ gfp + 4 by omega))
    have hm := mant_le (g1 % 2 ^ s) s
    rw [windowed_of_mem ((hpow (Nat.le_add_right _ _)).trans hlow) hlt, codeOfMagnitude_eq (by omega) hlow
      exp2Floor_lt, exp2Floor_top_bits hg hs, if_neg hwindow, if_neg hwindow]
    congr 1
    omega

/-- Settles O50: the code is the closed form's, and its logarithm is `RELOG`. -/
theorem closedFormEncodesLikeAlgorithm : Obligations.ClosedFormEncodesLikeAlgorithm := by
  intro gfp maxAgain g s hg hs
  simp only [encBy, exp2, log2, encClosed, codeOfMagnitude_exp2Floor hg (show s ≤ 32 by omega),
    log2Floor_dlin hg (show s ≤ 32 by omega)]

theorem scanIndex_le (gfp l : Nat) : scanIndex gfp l ≤ 3 := by
  unfold scanIndex
  repeat' split
  all_goals decide

theorem codeExponent_codeOfMagnitude (gfp l : Nat) : codeExponent (codeOfMagnitude gfp l) ≤ 3 := by
  have hscan := scanIndex_le gfp l
  rw [codeOfMagnitude, codeExponent_gainCode (by omega) (by omega)]
  exact hscan

/-- Settles O51: the closed form's exponent is cut at 3, and the scan finds none above 3. -/
theorem encodedExponentAtMostThree : Obligations.EncodedExponentAtMostThree := by
  intro c maxAgain g shift
  refine ⟨?_, Nat.le_of_lt_succ (codeMantissa_lt _)⟩
  cases hnm : c.numerics with
  | exactFloor =>
    rw [(encodeGain_exactFloor hnm maxAgain g shift).1, (closedCode_fields _ _).1]
    split <;> omega
  | custom id =>
    simp only [encodeGain, hnm, encBy]
    exact codeExponent_codeOfMagnitude _ _

/-! ## The contract of R122 -/

/-- (c): `EXP2` lies in the octave of its integer part. -/
theorem exp2_bounds (nm : Numerics) (gfp g s : Nat) :
    2 ^ (gfp + g / 2 ^ s) ≤ exp2 nm gfp g s ∧ exp2 nm gfp g s < 2 ^ (gfp + g / 2 ^ s + 1) := by
  cases nm with
  | exactFloor => exact ⟨exp2Floor_lower gfp g s, exp2Floor_lt⟩
  | custom id => exact exp2Octave_bounds id gfp s _ _

/-- (a): `EXP2` is exact at the integers. -/
theorem exp2_of_integer (nm : Numerics) (gfp n s : Nat) : exp2 nm gfp (n * 2 ^ s) s = 2 ^ (gfp + n) := by
  have hpos := Nat.two_pow_pos s
  cases nm with
  | exactFloor =>
    refine le_antisymm ?_ ?_
    · have hself := le_exp2Floor_iff.1 (le_refl (exp2Floor gfp (n * 2 ^ s) s))
      rw [← Nat.add_mul, pow_mul] at hself
      exact (Nat.pow_le_pow_iff_left hpos.ne').1 hself
    · simpa [exp2] using exp2Floor_lower gfp (n * 2 ^ s) s
  | custom id => simp [exp2, exp2Custom, exp2Octave]

/-- (b): `EXP2` does not decrease. -/
theorem exp2_mono (nm : Numerics) (gfp s : Nat) {g g' : Nat} (h : g ≤ g') : exp2 nm gfp g s ≤ exp2 nm gfp g' s := by
  cases nm with
  | exactFloor =>
    refine le_exp2Floor_iff.2 ((le_exp2Floor_iff.1 le_rfl).trans ?_)
    exact Nat.pow_le_pow_right (by decide) (by omega)
  | custom id =>
    have hoctave : g / 2 ^ s ≤ g' / 2 ^ s := Nat.div_le_div_right h
    rcases hoctave.lt_or_eq with hlt | heq
    · calc exp2 (.custom id) gfp g s ≤ 2 ^ (gfp + g / 2 ^ s + 1) := (exp2_bounds _ gfp g s).2.le
        _ ≤ 2 ^ (gfp + g' / 2 ^ s) := Nat.pow_le_pow_right (by decide) (by omega)
        _ ≤ exp2 (.custom id) gfp g' s := (exp2_bounds _ gfp g' s).1
    · have hd := Nat.div_add_mod g (2 ^ s)
      have hd' := Nat.div_add_mod g' (2 ^ s)
      simp only [exp2, exp2Custom]
      rw [heq] at hd ⊢
      exact exp2Octave_mono id gfp s _ (by omega)

/-- `LOG2` is 0 up to one. -/
theorem log2_of_le_one (nm : Numerics) {gfp l : Nat} (s : Nat) (h : l ≤ 2 ^ gfp) : log2 nm gfp l s = 0 := by
  cases nm with
  | exactFloor => exact if_pos h
  | custom id => exact if_pos h

/-- The octave a free `LOG2` looks a magnitude up in; the last one has no end. -/
def log2OctaveIndex (gfp l : Nat) : Nat := min 15 (Nat.log2 l - gfp)

/-- The cap of a free `LOG2` in octave `k`: the next octave's start, and a u32 in the last. -/
def log2Cap (s k : Nat) : Nat := if k < 15 then (k + 1) * 2 ^ s else 2 ^ 32 - 1

theorem log2Custom_of_gt {id gfp l : Nat} (s : Nat) (h : 2 ^ gfp < l) :
    log2Custom id gfp l s = log2Octave id gfp s (log2OctaveIndex gfp l) (log2Cap s (log2OctaveIndex gfp l))
      (l - 2 ^ (gfp + log2OctaveIndex gfp l)) :=
  if_neg (not_le.2 h)

theorem log2Cap_le {s k : Nat} (hs : s ≤ 28) : log2Cap s k ≤ 2 ^ 32 - 1 := by
  have hpow : 2 ^ s ≤ 2 ^ 28 := Nat.pow_le_pow_right (by decide) hs
  unfold log2Cap
  split
  · have := Nat.mul_le_mul_right (2 ^ s) (show k + 1 ≤ 15 by omega)
    omega
  · exact le_rfl

theorem le_log2Cap {s k : Nat} (hs : s ≤ 28) (hk : k ≤ 15) : k * 2 ^ s ≤ log2Cap s k := by
  have hpow : 2 ^ s ≤ 2 ^ 28 := Nat.pow_le_pow_right (by decide) hs
  unfold log2Cap
  split
  · exact Nat.mul_le_mul_right _ (by omega)
  · have := Nat.mul_le_mul_right (2 ^ s) hk
    omega

/-- A free `LOG2` lies between the start of its octave and the octave's cap. -/
theorem log2Custom_bounds {id gfp l s : Nat} (hs : s ≤ 28) (h : 2 ^ gfp < l) :
    log2OctaveIndex gfp l * 2 ^ s ≤ log2Custom id gfp l s ∧
      log2Custom id gfp l s ≤ log2Cap s (log2OctaveIndex gfp l) := by
  rw [log2Custom_of_gt s h]
  exact log2Octave_bounds id gfp s _ _ _ (le_log2Cap hs (Nat.min_le_left _ _))

theorem log2Custom_lt {id gfp l s : Nat} (hs : s ≤ 28) : log2Custom id gfp l s < 2 ^ 32 := by
  rcases Nat.lt_or_ge (2 ^ gfp) l with h | h
  · have hup := (log2Custom_bounds (id := id) hs h).2
    have := log2Cap_le (k := log2OctaveIndex gfp l) hs
    omega
  · have : log2Custom id gfp l s = 0 := log2_of_le_one (.custom id) s h
    omega

theorem natLog2_mono {a b : Nat} (h : a ≤ b) : Nat.log2 a ≤ Nat.log2 b := by
  rw [Nat.log2_eq_log_two, Nat.log2_eq_log_two]
  exact Nat.log_mono_right h

theorem log2OctaveIndex_mono {gfp l l' : Nat} (h : l ≤ l') : log2OctaveIndex gfp l ≤ log2OctaveIndex gfp l' := by
  have hlog : Nat.log2 l ≤ Nat.log2 l' := natLog2_mono h
  unfold log2OctaveIndex
  omega

/-- (d): `LOG2` is exact at the powers of two from one to `2^15`. -/
theorem log2_of_power (nm : Numerics) (gfp s : Nat) {k : Nat} (hk : k ≤ 15) :
    log2 nm gfp (2 ^ (gfp + k)) s = k * 2 ^ s := by
  rcases Nat.eq_zero_or_pos k with rfl | hpos
  · exact (log2_of_le_one nm s (le_refl (2 ^ gfp))).trans (Nat.zero_mul _).symm
  have hgt : 2 ^ gfp < 2 ^ (gfp + k) := Nat.pow_lt_pow_right (by decide) (by omega)
  cases nm with
  | exactFloor =>
    have hval : (2 ^ (gfp + k)) ^ 2 ^ s = 2 ^ ((gfp + k) * 2 ^ s) := (pow_mul _ _ _).symm
    have hfloor := log2Floor_of_bounds (s := s) (k := (gfp + k) * 2 ^ s) hgt hval.ge
      (hval.trans_lt (Nat.pow_lt_pow_right (by decide) (by omega)))
    rw [log2, hfloor, Nat.add_mul, Nat.add_sub_cancel_left]
  | custom id =>
    have hoctave : log2OctaveIndex gfp (2 ^ (gfp + k)) = k := by
      rw [log2OctaveIndex, Nat.log2_two_pow]
      omega
    rw [log2, log2Custom_of_gt s hgt, hoctave, Nat.sub_self, log2Octave]

/-- (e): `LOG2` does not decrease. -/
theorem log2_mono (nm : Numerics) (gfp : Nat) {s l l' : Nat} (hs : s ≤ 28) (h : l ≤ l') :
    log2 nm gfp l s ≤ log2 nm gfp l' s := by
  rcases Nat.lt_or_ge (2 ^ gfp) l with hgt | hle
  case inr => rw [log2_of_le_one nm s hle]; exact Nat.zero_le _
  have hgt' := hgt.trans_le h
  cases nm with
  | exactFloor =>
    have hpow : Nat.log2 (l ^ 2 ^ s) ≤ Nat.log2 (l' ^ 2 ^ s) := natLog2_mono (Nat.pow_le_pow_left h _)
    simp only [log2, log2Floor, if_neg (not_le.2 hgt), if_neg (not_le.2 hgt')]
    omega
  | custom id =>
    simp only [log2]
    rcases (log2OctaveIndex_mono (gfp := gfp) h).lt_or_eq with hlt | heq
    · have hindex' : log2OctaveIndex gfp l' ≤ 15 := Nat.min_le_left _ _
      calc log2Custom id gfp l s ≤ log2Cap s (log2OctaveIndex gfp l) := (log2Custom_bounds hs hgt).2
        _ = (log2OctaveIndex gfp l + 1) * 2 ^ s := if_pos (by omega)
        _ ≤ log2OctaveIndex gfp l' * 2 ^ s := Nat.mul_le_mul_right _ hlt
        _ ≤ log2Custom id gfp l' s := (log2Custom_bounds hs hgt').1
    · rw [log2Custom_of_gt s hgt, log2Custom_of_gt s hgt', heq]
      exact log2Octave_mono id gfp s _ _ (by omega)

/-- Settles O47, clause by clause. -/
theorem numericsMeetContract : Obligations.NumericsMeetContract := fun nm gfp s hs =>
  ⟨fun n => exp2_of_integer nm gfp n s, fun _ _ => exp2_mono nm gfp s, fun g => exp2_bounds nm gfp g s,
    fun _ => log2_of_power nm gfp s, fun _ _ => log2_mono nm gfp hs, fun _ => log2_of_le_one nm s⟩

/-! ## The commands -/

theorem exec_gainDecode (sh : Byte) (v : U32) (s : State) :
    exec (.gainDecode sh v) s = .next (done (setResults (decodeGain s.cfg (lowByte v) sh.toNat).1
      (decodeGain s.cfg (lowByte v) sh.toNat).2 s)) := rfl

/-- The code in the low byte, by its fields (R94, R133). -/
theorem lowByte_fields (v : U32) :
    codeExponent (lowByte v) = v.toNat / 16 % 16 ∧ codeMantissa (lowByte v) = v.toNat % 16 := by
  rw [codeExponent_eq, codeMantissa_eq, lowByte_toNat]
  omega

/-- The linear magnitude is not cut: it fits 32 bits (R121, R130). -/
theorem decodeGain_linear {c : Cfg} (hg : 4 ≤ c.gfp) (hg' : c.gfp ≤ 16) (code : Byte) (shift : Nat) :
    (decodeGain c code shift).2.toNat = dlin c.gfp code :=
  Nat.mod_eq_of_lt (dlin_lt hg hg' code)

theorem decodeGain_custom {c : Cfg} {id : Nat} (hnm : c.numerics = .custom id) (code : Byte) (shift : Nat) :
    (decodeGain c code shift).1.toNat = log2 (.custom id) c.gfp (dlin c.gfp code) (min shift 28) := by
  simp only [decodeGain, hnm, logOfCode, shiftOperand, log2, BitVec.toNat_ofNat]
  exact Nat.mod_eq_of_lt (log2Custom_lt (Nat.min_le_right _ _))

/-- Settles O44: neither result is cut, and the code's fields are those of `ARG0`. -/
theorem gainDecodeLoadsResults : Obligations.GainDecodeLoadsResults := by
  intro sh v s hg hg'
  obtain ⟨he, hm⟩ := lowByte_fields v
  refine ⟨decodeCommand_packCommand _ sh v, _, _, exec_gainDecode sh v s, ?_, fun hnm => ?_, fun id hnm => ?_⟩
  · refine (decodeGain_linear hg hg' (lowByte v) sh.toNat).trans ?_
    rw [dlin_eq hg, he, hm, ← pow_add, Nat.mul_comm]
    congr 2
    omega
  · refine (decodeGain_exactFloor hnm _ _).trans ?_
    rw [relog_eq, he, hm, threshold, Nat.shiftRight_eq_div_pow]
  · refine (decodeGain_custom hnm _ _).trans ?_
    rw [← decodeGain_linear hg hg' (lowByte v) sh.toNat]
    rfl

/-- Settles O42: the results loaded are the pair that `ENC` answers. -/
theorem gainEncodeLoadsResults : Obligations.GainEncodeLoadsResults := by
  intro sh g s code achieved henc
  have hexec : exec (.gainEncode sh g) s = .next (done (setResults achieved (code.setWidth 32) s)) := by
    rw [exec, execGainEncode, henc]
  exact ⟨decodeCommand_packCommand _ sh g, hexec⟩

/-- Settles O45: the operand itself is loaded. -/
theorem dgainEncodeIsIdentity : Obligations.DgainEncodeIsIdentity := fun sh g _ =>
  ⟨decodeCommand_packCommand _ sh g, rfl⟩

/-- Settles O41: both commands are `done` alone. -/
theorem noOpCommandsOnlySucceed : Obligations.NoOpCommandsOnlySucceed := fun a v _ =>
  ⟨decodeCommand_packCommand _ a v, decodeCommand_packCommand _ a v, rfl, rfl⟩

/-- The write of the code, the results loaded whatever the answer, and the answer reported (R135, R233). -/
theorem writeGain_eq {code : Byte} {achieved : U32} {s : State} {r : Reply}
    (h : writeReply s 0 s.cfg.againAddr code = r) :
    writeGain code achieved s = finish (if r = .ok then 0#32 else statusCode .busFailure)
      { s with res0 := achieved, res1 := code.setWidth 32, writes := s.writes + 1,
               trace := s.trace ++ [.wr s.cfg.againAddr code r] } := by
  subst h
  cases hr : writeReply s 0 s.cfg.againAddr code <;>
    simp [writeGain, memWrite, hr, done, raise, afterWrite, setResults]

/-- Settles O46: the gate first, then the write by its answer. -/
theorem setAnalogGainWritesCode : Obligations.SetAnalogGainWritesCode := by
  intro a g s code achieved henc
  have hexec : exec (.setAnalogGain a g) s = gated s (.next (writeGain code achieved s)) := by
    rw [exec, execSetAnalogGain, henc]
  rw [hexec]
  refine ⟨decodeCommand_packCommand _ a g, fun hphase => ?_, fun hdet hok => ?_, fun hdet herr => ?_⟩
  · rw [gated_of_not_detected ((detected_eq_false_iff s).2 hphase)]
    rfl
  · rw [gated_of_detected hdet, writeGain_eq hok]
    simp [finish]
  · rw [gated_of_detected hdet, writeGain_eq herr]
    simp [finish, statusCode]

end Sys2Proof.Machine

/-! The Timing Engine (spec 41_timing_engine.md). Every access of `SET_FPS` draws the next answer and appends its event, so
the state between two accesses is `accessed s n m evs`, and each stage of the command is one equation between such states
per answer. A run of the command is the chain of the equations of its stages; acceptance of a rate and the vertical total
are arithmetic on numerator and denominator. -/

namespace Sys2Proof.Machine

/-! ## The state between two accesses -/

/-- The state after `n` reads and `m` writes were answered, which appended `evs` (R15, R61). -/
def accessed (s : State) (n m : Nat) (evs : List Event) : State :=
  { s with reads := s.reads + n, writes := s.writes + m, trace := s.trace ++ evs }

section
variable {s : State} {n m : Nat} {evs : List Event}

@[simp] theorem accessed_cfg : (accessed s n m evs).cfg = s.cfg := rfl

theorem memRead_first {a : Byte} {x : ReadReply} (h : readReply s 0 a = x) :
    memRead a s = (x, accessed s 1 0 [.rd a x]) := by
  subst h
  rfl

theorem memWrite_first {a v : Byte} {x : Reply} (h : writeReply s 0 a v = x) :
    memWrite a v s = (x, accessed s 0 1 [.wr a v x]) := by
  subst h
  rfl

theorem memRead_accessed {a : Byte} {x : ReadReply} (h : readReply s n a = x) :
    memRead a (accessed s n m evs) = (x, accessed s (n + 1) m (evs ++ [.rd a x])) := by
  have hx : readReply (accessed s n m evs) 0 a = x := h
  rw [memRead, afterRead, hx]
  simp [accessed, Nat.add_assoc]

theorem memWrite_accessed {a v : Byte} {x : Reply} (h : writeReply s m a v = x) :
    memWrite a v (accessed s n m evs) = (x, accessed s n (m + 1) (evs ++ [.wr a v x])) := by
  have hx : writeReply (accessed s n m evs) 0 a v = x := h
  rw [memWrite, afterWrite, hx]
  simp [accessed, Nat.add_assoc]

/-- A command that ends between two accesses: the accesses done, then the response (R92, R231). -/
theorem finish_accessed (code : U32) :
    finish code (accessed s n m evs) = { s with
      reads := s.reads + n, writes := s.writes + m, status := code, busy := false
      trace := s.trace ++ (evs ++ [.resp code s.res0 s.res1]) } := by
  simp [finish, accessed]

theorem raise_accessed (k : ErrorKind) :
    raise k (accessed s n m evs) = { s with
      reads := s.reads + n, writes := s.writes + m, status := statusCode k, busy := false
      trace := s.trace ++ (evs ++ [.resp (statusCode k) s.res0 s.res1]) } :=
  finish_accessed _

/-! ## The stages of `SET_FPS` -/

/-- Step 3 stops at the low byte (R154, R161). -/
theorem measureTiming_of_low_err {r : U32} (hlo : readReply s 0 s.cfg.htsLAddr = .err) :
    measureTiming r s = raise .busFailure (accessed s 1 0 [.rd s.cfg.htsLAddr .err]) := by
  simp [measureTiming, memRead_first hlo]

/-- Step 3 stops at the high byte (R154, R161). -/
theorem measureTiming_of_high_err {r : U32} {lo : Byte} (hlo : readReply s 0 s.cfg.htsLAddr = .ok lo)
    (hhi : readReply s 1 s.cfg.htsHAddr = .err) :
    measureTiming r s =
      raise .busFailure (accessed s 2 0 [.rd s.cfg.htsLAddr (.ok lo), .rd s.cfg.htsHAddr .err]) := by
  simp [measureTiming, memRead_first hlo, memRead_accessed hhi]

/-- Step 3 answered: the low byte, then the high byte (R154). -/
theorem measureTiming_of_ok {r : U32} {lo hi : Byte} (hlo : readReply s 0 s.cfg.htsLAddr = .ok lo)
    (hhi : readReply s 1 s.cfg.htsHAddr = .ok hi) :
    measureTiming r s = computeTiming r (horizontalTotal hi lo)
      (accessed s 2 0 [.rd s.cfg.htsLAddr (.ok lo), .rd s.cfg.htsHAddr (.ok hi)]) := by
  simp [measureTiming, memRead_first hlo, memRead_accessed hhi]

/-- Step 4 with a horizontal total that is not 0 (R155). -/
theorem computeTiming_of_ne_zero {r : U32} {hts : Nat} (h : hts ≠ 0) :
    computeTiming r hts (accessed s n m evs) =
      programTiming r (BitVec.ofNat 32 (verticalTotal s.cfg r hts)) (accessed s n m evs) := if_neg h

/-- Step 4 with a horizontal total of 0: the internal fault (R154, R226). -/
theorem computeTiming_of_zero {r : U32} :
    computeTiming r 0 (accessed s n m evs) = raise .internalFault (accessed (setLog faultBit s) n m evs) := if_pos rfl

/-- Step 5 stops at the read of the group-write register (R157, R161). -/
theorem programTiming_of_read_err {r vt : U32} (hc : readReply s n s.cfg.grpCtrlAddr = .err) :
    programTiming r vt (accessed s n m evs) =
      raise .busFailure (accessed s (n + 1) m (evs ++ [.rd s.cfg.grpCtrlAddr .err])) := by
  simp [programTiming, memRead_accessed hc]

/-- Step 5 stops at the write of the group-write register (R157, R161). -/
theorem programTiming_of_write_err {r vt : U32} {c : Byte} (hc : readReply s n s.cfg.grpCtrlAddr = .ok c)
    (hg : writeReply s m s.cfg.grpCtrlAddr (c ||| 0x80#8) = .err) :
    programTiming r vt (accessed s n m evs) = raise .busFailure (accessed s (n + 1) (m + 1)
      (evs ++ [.rd s.cfg.grpCtrlAddr (.ok c), .wr s.cfg.grpCtrlAddr (c ||| 0x80#8) .err])) := by
  simp [programTiming, memRead_accessed hc, memWrite_accessed hg]

/-- Step 5 past the group-write flag (R157). -/
theorem programTiming_of_ok {r vt : U32} {c : Byte} (hc : readReply s n s.cfg.grpCtrlAddr = .ok c)
    (hg : writeReply s m s.cfg.grpCtrlAddr (c ||| 0x80#8) = .ok) :
    programTiming r vt (accessed s n m evs) = writeHalves r vt (accessed s (n + 1) (m + 1)
      (evs ++ [.rd s.cfg.grpCtrlAddr (.ok c), .wr s.cfg.grpCtrlAddr (c ||| 0x80#8) .ok])) := by
  simp [programTiming, memRead_accessed hc, memWrite_accessed hg]

/-- Step 5 stops at the low half (R157, R161). -/
theorem writeHalves_of_low_err {r : U32} {vt : Nat} (hl : writeReply s m s.cfg.vtsLAddr (BitVec.ofNat 8 vt) = .err) :
    writeHalves r (BitVec.ofNat 32 vt) (accessed s n m evs) = raise .busFailure
      (accessed s n (m + 1) (evs ++ [.wr s.cfg.vtsLAddr (BitVec.ofNat 8 vt) .err])) := by
  simp [writeHalves, lowByte_ofNat, memWrite_accessed hl]

/-- Step 5 stops at the high half (R157, R161). -/
theorem writeHalves_of_high_err {r : U32} {vt : Nat} (hl : writeReply s m s.cfg.vtsLAddr (BitVec.ofNat 8 vt) = .ok)
    (hh : writeReply s (m + 1) s.cfg.vtsHAddr (BitVec.ofNat 8 (vt / 256)) = .err) :
    writeHalves r (BitVec.ofNat 32 vt) (accessed s n m evs) = raise .busFailure (accessed s n (m + 2)
      (evs ++ [.wr s.cfg.vtsLAddr (BitVec.ofNat 8 vt) .ok, .wr s.cfg.vtsHAddr (BitVec.ofNat 8 (vt / 256)) .err])) := by
  simp [writeHalves, lowByte_ofNat, highByte_ofNat, memWrite_accessed hl, memWrite_accessed hh]

/-- Step 5 done: both halves written (R157). -/
theorem writeHalves_of_ok {r : U32} {vt : Nat} (hl : writeReply s m s.cfg.vtsLAddr (BitVec.ofNat 8 vt) = .ok)
    (hh : writeReply s (m + 1) s.cfg.vtsHAddr (BitVec.ofNat 8 (vt / 256)) = .ok) :
    writeHalves r (BitVec.ofNat 32 vt) (accessed s n m evs) =
      commitTiming r (BitVec.ofNat 32 vt) (accessed s n (m + 2)
        (evs ++ [.wr s.cfg.vtsLAddr (BitVec.ofNat 8 vt) .ok, .wr s.cfg.vtsHAddr (BitVec.ofNat 8 (vt / 256)) .ok])) := by
  simp [writeHalves, lowByte_ofNat, highByte_ofNat, memWrite_accessed hl, memWrite_accessed hh]

/-- Step 6: attributes and rate are recorded before the notification shows the rate (R158, R159). -/
theorem commitTiming_accessed (r vt : U32) :
    commitTiming r vt (accessed s n m evs) = { s with
      reads := s.reads + n, writes := s.writes + m, attr := timedAttr vt s.attr, curFps := r
      status := 0#32, busy := false
      trace := s.trace ++ (evs ++ [.notify { videoDescriptor s with fps := r }, .resp 0#32 s.res0 s.res1]) } := by
  have hvd : videoDescriptor (retime r vt (accessed s n m evs)) = { videoDescriptor s with fps := r } :=
    videoDescriptor_congr rfl rfl
  rw [commitTiming_eq, done_notify_eq, hvd]
  simp [retime, accessed]

end

/-! ## The command `SET_FPS` -/

/-- Past the gate and the rate check `SET_FPS` is its accesses (R160). -/
theorem exec_setFps_of_accepted {a : Byte} {r : U32} {s : State} (hd : detected s = true)
    (hr : rateAccepted s.cfg r = true) : exec (.setFps a r) s = .next (measureTiming r s) := by
  rw [exec, execSetFps, gated_of_detected hd, if_pos hr]

theorem exec_setFps_of_rejected {a : Byte} {r : U32} {s : State} (hd : detected s = true)
    (hr : ¬rateAccepted s.cfg r = true) : exec (.setFps a r) s = .next (raise .outOfRange s) := by
  rw [exec, execSetFps, gated_of_detected hd, if_neg hr]

theorem horizontalTotal_eq_zero_iff (hi lo : Byte) : horizontalTotal hi lo = 0 ↔ lo = 0#8 ∧ hi = 0#8 := by
  rw [horizontalTotal_eq, BitVec.toNat_eq, BitVec.toNat_eq, BitVec.toNat_ofNat]
  omega

/-- An accepted rate and a horizontal total that is not 0 bring `SET_FPS` to step 5 (R151 to R155). -/
theorem exec_setFps_measured {a : Byte} {r : U32} {s : State} {lo hi : Byte} (hd : detected s = true)
    (hr : rateAccepted s.cfg r = true) (hlo : readReply s 0 s.cfg.htsLAddr = .ok lo)
    (hhi : readReply s 1 s.cfg.htsHAddr = .ok hi) (hne : horizontalTotal hi lo ≠ 0) :
    exec (.setFps a r) s = .next (programTiming r
      (BitVec.ofNat 32 (verticalTotal s.cfg r (2 * (256 * hi.toNat + lo.toNat))))
      (accessed s 2 0 [.rd s.cfg.htsLAddr (.ok lo), .rd s.cfg.htsHAddr (.ok hi)])) := by
  rw [exec_setFps_of_accepted hd hr, measureTiming_of_ok hlo hhi, computeTiming_of_ne_zero hne, horizontalTotal_eq]

/-- The first event of step 3 is the read of the low byte, whatever it is answered (R154). -/
theorem accounted_afterRead_measureTiming (r : U32) (s : State) :
    Accounted (afterRead s.cfg.htsLAddr s) (measureTiming r s) := by
  cases hlo : readReply s 0 s.cfg.htsLAddr with
  | err => simpa [measureTiming, memRead, hlo] using accounted_raise .busFailure (afterRead s.cfg.htsLAddr s)
  | ok lo =>
    simp only [measureTiming, memRead, hlo]
    split
    · next hhi => exact (accounted_memRead hhi).trans (accounted_raise ..)
    · next hhi => exact (accounted_memRead hhi).trans (accounted_computeTiming ..)

/-- Settles O57: one equation per stage passed, then the one of the failing access. -/
theorem setFpsStopsAtFirstFailure : Obligations.SetFpsStopsAtFirstFailure := by
  intro a r s hd hr
  refine ⟨fun hlo => ?_, fun lo hlo hhi => ?_, fun lo hi hlo hhi hne => ?_⟩
  · rw [exec_setFps_of_accepted hd hr, measureTiming_of_low_err hlo, raise_accessed]
    rfl
  · rw [exec_setFps_of_accepted hd hr, measureTiming_of_high_err hlo hhi, raise_accessed]
    rfl
  · have hrun := exec_setFps_measured (a := a) hd hr hlo hhi (mt (horizontalTotal_eq_zero_iff hi lo).1 hne)
    refine ⟨fun hc => ?_, fun c hc => ⟨fun hg => ?_, fun hg hl => ?_, fun hg hl hh => ?_⟩⟩
    · rw [hrun, programTiming_of_read_err hc, raise_accessed]
      rfl
    · rw [hrun, programTiming_of_write_err hc hg, raise_accessed]
      rfl
    · rw [hrun, programTiming_of_ok hc hg, writeHalves_of_low_err hl, raise_accessed]
      rfl
    · rw [hrun, programTiming_of_ok hc hg, writeHalves_of_high_err hl hh, raise_accessed]
      rfl

/-- Settles O55: every stage answered `Ok`, then step 6. -/
theorem setFpsCommitsTiming : Obligations.SetFpsCommitsTiming := by
  intro a r s lo hi c hd num den hts vt hden hmin hmax hne hlo hhi hc hg hl hh
  have hr : rateAccepted s.cfg r = true := (rateAccepted_iff s.cfg r).2 ⟨hden, hmin, hmax⟩
  have hvt : verticalTotal s.cfg r hts = vt := by rw [verticalTotal, denominator_eq, numerator_eq]
  rw [exec_setFps_measured hd hr hlo hhi (by rwa [horizontalTotal_eq]), hvt, programTiming_of_ok hc hg,
    writeHalves_of_ok hl hh, commitTiming_accessed]
  rfl

/-- Settles O56: the check of the rate decides alone. -/
theorem setFpsRejectsRate : Obligations.SetFpsRejectsRate := by
  intro a r s hd num den
  refine ⟨fun hrej => ?_, fun hden hmin hmax => ?_⟩
  · have hr : ¬rateAccepted s.cfg r = true := fun hacc => by
      obtain ⟨hden, hmin, hmax⟩ := (rateAccepted_iff s.cfg r).1 hacc
      exact hrej.elim hden (Or.rec hmin.not_gt hmax.not_gt)
    rw [exec_setFps_of_rejected hd hr]
    rfl
  · have hr : rateAccepted s.cfg r = true := (rateAccepted_iff s.cfg r).2 ⟨hden, hmin, hmax⟩
    obtain ⟨evs, hdraws⟩ := accounted_afterRead_measureTiming r s
    refine ⟨_, evs, exec_setFps_of_accepted hd hr, ?_⟩
    rw [hdraws.trace, afterRead_trace, List.append_assoc, List.singleton_append]

/-- Settles O58: step 4 raises the fault in place of the division. -/
theorem zeroHorizontalTotalIsInternalFault : Obligations.ZeroHorizontalTotalIsInternalFault := by
  intro a r s hd hr hlo hhi
  have hzero : horizontalTotal 0#8 0#8 = 0 := (horizontalTotal_eq_zero_iff _ _).2 ⟨rfl, rfl⟩
  rw [exec_setFps_of_accepted hd hr, measureTiming_of_ok hlo hhi, hzero, computeTiming_of_zero, raise_accessed]
  rfl

/-! ## What acceptance gives -/

/-- The two divisions of step 4 are one (R155). -/
theorem verticalTotal_eq (c : Cfg) (r : U32) (hts : Nat) :
    verticalTotal c r hts = c.pclk * (r.toNat % 65536) / (hts * (r.toNat / 65536)) := by
  rw [verticalTotal, denominator_eq, numerator_eq, Nat.div_div_eq_div_mul]

/-- Acceptance bounds the denominator by the numerator, as no accepted rate is below one frame a second (R11, R153). -/
theorem denominator_le_of_accepted {c : Cfg} {r : U32} (hmin : 1 ≤ c.minFps) (hr : rateAccepted c r = true) :
    1 ≤ r.toNat % 65536 ∧ r.toNat % 65536 ≤ r.toNat / 65536 := by
  obtain ⟨hden, hlow, -⟩ := (rateAccepted_iff c r).1 hr
  have hpos : 0 < r.toNat % 65536 := Nat.pos_of_ne_zero hden
  have hone : 256 * (r.toNat % 65536) ≤ 256 * (r.toNat / 65536) :=
    (Nat.le_div_iff_mul_le hpos).1 (le_trans (by omega) hlow)
  omega

/-- `scaled` fits 24 bits (R152). -/
theorem scaledFps_lt (r : U32) : scaledFps r < 2 ^ 24 := by
  have hlt := r.isLt
  have hle : 256 * (r.toNat / 65536) / (r.toNat % 65536) ≤ 256 * (r.toNat / 65536) := Nat.div_le_self ..
  rw [scaledFps_eq]
  omega

/-- The vertical total is at most half the pixel clock for a rate of at least one and a horizontal total of at least two
(R156). -/
theorem verticalTotal_le {c : Cfg} {r : U32} {hts : Nat} (hden : 1 ≤ r.toNat % 65536)
    (hnum : r.toNat % 65536 ≤ r.toNat / 65536) (hhts : 2 ≤ hts) : verticalTotal c r hts ≤ c.pclk / 2 := by
  calc verticalTotal c r hts = c.pclk * (r.toNat % 65536) / (hts * (r.toNat / 65536)) := verticalTotal_eq ..
    _ ≤ c.pclk * (r.toNat % 65536) / (2 * (r.toNat % 65536)) :=
      Nat.div_le_div_left (Nat.mul_le_mul hhts hnum) (by omega)
    _ = c.pclk / 2 := Nat.mul_div_mul_right _ _ hden

/-- Settles O59. -/
theorem acceptedRateBoundsVerticalTotal : Obligations.AcceptedRateBoundsVerticalTotal := by
  intro c r hmin hr
  obtain ⟨hden, hnum⟩ := denominator_le_of_accepted hmin hr
  refine ⟨scaledFps_eq r, scaledFps_lt r, hden, hnum, fun lo hi hne => ?_⟩
  have hrange : 2 ≤ horizontalTotal hi lo ∧ horizontalTotal hi lo ≤ 131070 := by
    have hlo := lo.isLt
    have hhi := hi.isLt
    rw [horizontalTotal_eq] at hne ⊢
    omega
  exact ⟨hrange.1, hrange.2, verticalTotal_eq .., verticalTotal_le hden hnum hrange.1⟩

/-! ## `SET_INTEGRATION_TIME` -/

theorem lowByte_eq_ofNat (v : U32) : lowByte v = BitVec.ofNat 8 v.toNat := by
  rw [← lowByte_ofNat, BitVec.ofNat_toNat, BitVec.setWidth_eq]

theorem highByte_eq_ofNat (v : U32) : highByte v = BitVec.ofNat 8 (v.toNat / 256) := by
  rw [← highByte_ofNat, BitVec.ofNat_toNat, BitVec.setWidth_eq]

/-- Both bytes are attempted whatever the answers, which only choose the status (R162, R233). -/
theorem writeExposure_eq {v : U32} {s : State} {r1 r2 : Reply}
    (hlow : writeReply s 0 s.cfg.expoLAddr (BitVec.ofNat 8 v.toNat) = r1)
    (hhigh : writeReply s 1 s.cfg.expoHAddr (BitVec.ofNat 8 (v.toNat / 256)) = r2) :
    writeExposure v s = finish (if r1 = .ok ∧ r2 = .ok then 0#32 else statusCode .busFailure)
      (accessed s 0 2 [.wr s.cfg.expoLAddr (BitVec.ofNat 8 v.toNat) r1,
        .wr s.cfg.expoHAddr (BitVec.ofNat 8 (v.toNat / 256)) r2]) := by
  simp only [writeExposure, lowByte_eq_ofNat, highByte_eq_ofNat, memWrite_first hlow, accessed_cfg,
    memWrite_accessed hhigh]
  cases r1 <;> cases r2 <;> rfl

/-- Settles O60: the gate, then the two writes. -/
theorem setIntegrationTimeWritesBothBytes : Obligations.SetIntegrationTimeWritesBothBytes := by
  intro a v s r1 r2 hlow hhigh
  refine ⟨decodeCommand_packCommand _ a v, fun hphase => ?_, fun hd => ?_⟩
  · rw [exec, execSetIntegrationTime, gated_of_not_detected ((detected_eq_false_iff s).2 hphase)]
    rfl
  · rw [exec, execSetIntegrationTime, gated_of_detected hd, writeExposure_eq hlow hhigh, finish_accessed]
    rfl

end Sys2Proof.Machine

/-! The Mode/State Controller: `DETECT`, modes, streaming, the gate and the transition table (spec 42_mode_state.md R170 to
R185). `DETECT` is its pin stages, then the identity check, whose reads are followed through `accessed` as those of
`SET_FPS` are. A command that applies a table is `withTable_accepted` and then its own end. -/

namespace Sys2Proof.Machine

/-! ## The identity check -/

section
variable {s : State} {n m : Nat} {evs : List Event}

/-- A failed detection between two accesses: `DetectFailed`, the accesses done, the response (R172, R175). -/
theorem failDetect_accessed (k : ErrorKind) :
    failDetect k (accessed s n m evs) = { s with
      reads := s.reads + n, writes := s.writes + m, phase := .detectFailed, status := statusCode k, busy := false
      trace := s.trace ++ (evs ++ [.resp (statusCode k) s.res0 s.res1]) } :=
  raise_accessed (s := { s with phase := .detectFailed }) k

/-- The bus refuses the high byte (R175, R222). -/
theorem identityCheck_of_high_err (hh : readReply s 0 s.cfg.idHAddr = .err) :
    identityCheck s = failDetect .busFailure (accessed s 1 0 [.rd s.cfg.idHAddr .err]) := by
  simp [identityCheck, memRead_first hh]

/-- The high byte is wrong, and the low byte is not read (R175, R223). -/
theorem identityCheck_of_high_wrong {h : Byte} (hh : readReply s 0 s.cfg.idHAddr = .ok h) (hne : h ≠ s.cfg.idHVal) :
    identityCheck s = failDetect .notDetected (accessed s 1 0 [.rd s.cfg.idHAddr (.ok h)]) := by
  simp [identityCheck, memRead_first hh, hne]

/-- The high byte is as expected, and the low byte is next (R175). -/
theorem identityCheck_of_high_ok (hh : readReply s 0 s.cfg.idHAddr = .ok s.cfg.idHVal) :
    identityCheck s = checkIdentityLow (accessed s 1 0 [.rd s.cfg.idHAddr (.ok s.cfg.idHVal)]) := by
  simp [identityCheck, memRead_first hh]

/-- The bus refuses the low byte (R175, R222). -/
theorem checkIdentityLow_of_err (hl : readReply s n s.cfg.idLAddr = .err) :
    checkIdentityLow (accessed s n m evs) =
      failDetect .busFailure (accessed s (n + 1) m (evs ++ [.rd s.cfg.idLAddr .err])) := by
  simp [checkIdentityLow, memRead_accessed hl]

/-- The low byte is wrong (R175, R223). -/
theorem checkIdentityLow_of_wrong {l : Byte} (hl : readReply s n s.cfg.idLAddr = .ok l) (hne : l ≠ s.cfg.idLVal) :
    checkIdentityLow (accessed s n m evs) =
      failDetect .notDetected (accessed s (n + 1) m (evs ++ [.rd s.cfg.idLAddr (.ok l)])) := by
  simp [checkIdentityLow, memRead_accessed hl, hne]

/-- The low byte is as expected too: the device is detected (R172, R175). -/
theorem checkIdentityLow_of_ok (hl : readReply s n s.cfg.idLAddr = .ok s.cfg.idLVal) :
    checkIdentityLow (accessed s n m evs) = done (accessed { s with phase := .uninitialized } (n + 1) m
      (evs ++ [.rd s.cfg.idLAddr (.ok s.cfg.idLVal)])) := by
  simp only [checkIdentityLow, accessed_cfg, memRead_accessed hl, if_true]
  rfl

end

/-! ## `DETECT` -/

/-- The three phases that the gate lets act (R170). -/
theorem detected_iff_phase (s : State) :
    detected s = true ↔ s.phase = .uninitialized ∨ s.phase = .configured ∨ s.phase = .streaming := by
  unfold detected
  cases s.phase <;> simp

/-- In `PreDetect` both pin stages come first, whatever they were answered (R172 to R174). -/
theorem exec_detect_of_preDetect {a : Byte} {v : U32} {s : State} (hp : s.phase = .preDetect) :
    exec (.detect a v) s = .next (identityCheck (afterPins s)) := by
  rw [← pwdnPulse_resetPulse]
  simp [exec, execDetect, detectIn, hp]

/-- After a success `DETECT` only succeeds (R172). -/
theorem exec_detect_of_detected {a : Byte} {v : U32} {s : State} (hd : detected s = true) :
    exec (.detect a v) s = .next (done s) := by
  rcases (detected_iff_phase s).1 hd with hp | hp | hp <;> simp [exec, execDetect, detectIn, hp]

/-- After a failure `DETECT` only answers `NotDetected` (R172). -/
theorem exec_detect_of_detectFailed {a : Byte} {v : U32} {s : State} (hp : s.phase = .detectFailed) :
    exec (.detect a v) s = .next (raise .notDetected s) := by
  simp [exec, execDetect, detectIn, hp]

/-- How `DETECT` ends in `PreDetect`: with both identity bytes read as expected, or in a failure after one read or
two. -/
inductive DetectEnd (s t : State) : Prop
  | ok (hh : readReply s 0 s.cfg.idHAddr = .ok s.cfg.idHVal) (hl : readReply s 1 s.cfg.idLAddr = .ok s.cfg.idLVal)
      (ht : t = done (accessed { afterPins s with phase := .uninitialized } 2 0
        [.rd s.cfg.idHAddr (.ok s.cfg.idHVal), .rd s.cfg.idLAddr (.ok s.cfg.idLVal)]))
  | high (k : ErrorKind) (x : ReadReply) (hh : readReply s 0 s.cfg.idHAddr ≠ .ok s.cfg.idHVal)
      (ht : t = failDetect k (accessed (afterPins s) 1 0 [.rd s.cfg.idHAddr x]))
  | low (k : ErrorKind) (x y : ReadReply) (hl : readReply s 1 s.cfg.idLAddr ≠ .ok s.cfg.idLVal)
      (ht : t = failDetect k (accessed (afterPins s) 2 0 [.rd s.cfg.idHAddr x, .rd s.cfg.idLAddr y]))

/-- The high byte decides first, then the low byte (R175). -/
theorem detectEnd_identityCheck (s : State) : DetectEnd s (identityCheck (afterPins s)) := by
  cases hh : readReply s 0 s.cfg.idHAddr with
  | err => exact .high _ _ (by simp [hh]) (identityCheck_of_high_err (s := afterPins s) hh)
  | ok h =>
    by_cases hne : h = s.cfg.idHVal
    · subst hne
      have hrun := identityCheck_of_high_ok (s := afterPins s) hh
      cases hl : readReply s 1 s.cfg.idLAddr with
      | err => exact .low _ _ _ (by simp [hl]) (hrun.trans (checkIdentityLow_of_err (s := afterPins s) hl))
      | ok l =>
        by_cases hne : l = s.cfg.idLVal
        · subst hne
          exact .ok hh hl (hrun.trans (checkIdentityLow_of_ok (s := afterPins s) hl))
        · exact .low _ _ _ (by simpa [hl] using hne)
            (hrun.trans (checkIdentityLow_of_wrong (s := afterPins s) hl hne))
    · exact .high _ _ (by simpa [hh] using hne) (identityCheck_of_high_wrong (s := afterPins s) hh hne)

/-- Settles O26: the pin stages, the high byte, the low byte. -/
theorem detectSucceeds : Obligations.DetectSucceeds := by
  intro a v s hp hh hl
  rw [exec_detect_of_preDetect hp, identityCheck_of_high_ok (s := afterPins s) hh,
    checkIdentityLow_of_ok (s := afterPins s) hl, done, finish_accessed]
  rfl

/-- Settles O27: one equation per read that was answered, then the one of the failure. -/
theorem detectFailsOnIdentity : Obligations.DetectFailsOnIdentity := by
  intro a v s hp
  rw [exec_detect_of_preDetect hp]
  refine ⟨fun hh => ?_, fun h hh hne => ?_, fun hh hl => ?_, fun l hh hl hne => ?_⟩
  · rw [identityCheck_of_high_err (s := afterPins s) hh, failDetect_accessed]
    rfl
  · rw [identityCheck_of_high_wrong (s := afterPins s) hh hne, failDetect_accessed]
    rfl
  · rw [identityCheck_of_high_ok (s := afterPins s) hh, checkIdentityLow_of_err (s := afterPins s) hl,
      failDetect_accessed]
    rfl
  · rw [identityCheck_of_high_ok (s := afterPins s) hh, checkIdentityLow_of_wrong (s := afterPins s) hl hne,
      failDetect_accessed]
    rfl

/-- Settles O28, by the phase. -/
theorem detectActsOncePerAttach : Obligations.DetectActsOncePerAttach := by
  intro a v s
  exact ⟨fun hp => exec_detect_of_detected ((detected_iff_phase s).2 hp), exec_detect_of_detectFailed⟩

/-! ## The gate -/

/-- The gate stands before every device command (R170). -/
theorem exec_of_not_detected {i : Instr} {s : State} (hi : isDeviceCommand i = true) (hd : detected s = false) :
    exec i s = .next (raise .notDetected s) := by
  cases i with
  | init | resize | streamOn | streamOff | prepareChange | finishChange | setIntegrationTime | setAnalogGain | setFps =>
    exact gated_of_not_detected hd _
  | detect | setDigitalGain | getBlackLevel | gainEncode | gainDecode | dgainEncode | unknown | te | td | tw => cases hi

/-- A command that touches no device writes registers, succeeds, and does nothing else (R132 to R136, R182, R183). -/
theorem exec_of_no_device {i : Instr} (hi : isCommand i = true) (hdev : isDeviceCommand i = false)
    (hdet : ∀ a v, i ≠ .detect a v) (s : State) :
    ∃ b : State, exec i s = .next (done b) ∧ b.phase = s.phase ∧ b.trace = s.trace := by
  cases i with
  | setDigitalGain | getBlackLevel => exact ⟨s, rfl, rfl, rfl⟩
  | gainEncode | gainDecode | dgainEncode => exact ⟨setResults _ _ s, rfl, rfl, rfl⟩
  | unknown => exact ⟨setLog unknownCmdBit s, rfl, rfl, rfl⟩
  | detect a v => exact absurd rfl (hdet a v)
  | init | resize | streamOn | streamOff | prepareChange | finishChange | setIntegrationTime | setAnalogGain | setFps =>
    cases hdev
  | te | td | tw => cases hi

/-- Settles O23: the gate of the device commands, and the success of those that touch no device. -/
theorem phaseGateRefusesDeviceCommands : Obligations.PhaseGateRefusesDeviceCommands := by
  refine ⟨fun i s hi hp => exec_of_not_detected hi ((detected_eq_false_iff s).2 hp), fun i s hi hdev hdet => ?_⟩
  obtain ⟨b, hb, -, -⟩ := exec_of_no_device hi hdev hdet s
  exact ⟨done b, hb, rfl⟩

/-- Settles O29: a `DETECT` that fails ends in `DetectFailed` with no write, and there the gate refuses `INIT`. -/
theorem failedDetectBlocksInit : Obligations.FailedDetectBlocksInit := by
  intro a b v k s t hp hne h
  rw [exec_detect_of_preDetect hp, Host.Outcome.next.injEq] at h
  have hfailed : t.phase = .detectFailed ∧ t.writes = s.writes := by
    cases h ▸ detectEnd_identityCheck s with
    | ok hh hl => exact absurd hne (by simp [hh, hl])
    | high _ _ _ ht | low _ _ _ _ ht => exact ht ▸ ⟨rfl, rfl⟩
  obtain ⟨hphase, hwrites⟩ := hfailed
  exact ⟨hwrites, exec_of_not_detected (i := .init b k) rfl ((detected_eq_false_iff t).2 (.inr hphase))⟩

/-- Settles O6: no row of the opcode map has such an opcode, and `UNKNOWN` is the log bit and `done`. -/
theorem unlistedOpcodesAreLoggedNoOps : Obligations.UnlistedOpcodesAreLoggedNoOps := by
  intro w s hop
  have hgap : InOpcodeGap (opField w).toNat := by
    unfold InOpcodeGap
    omega
  have hdecode : decodeCommand w = .unknown (opField w) (arg1Field w) (arg0Field w) :=
    decodeFields_of_unnamed (namedOpcodes_contains_of_gap hgap) _ _
  exact ⟨hdecode, by rw [hdecode]; rfl⟩

/-! ## Modes -/

/-- Settles O32: past the gate the mode file has no descriptor to act on. -/
theorem unknownModeIsOutOfRange : Obligations.UnknownModeIsOutOfRange := by
  intro a k s i hi hd hk
  have hnone : modeOperand s.cfg k = none := List.getElem?_eq_none hk
  rcases hi with rfl | rfl
  · rw [exec, execInit, gated_of_detected hd, hnone]
    rfl
  · rw [exec, execResize, gated_of_detected hd, hnone]
    rfl

/-- Past the gate `INIT` is its table and then its end (R176). -/
theorem execInit_of_detected {k : U32} {s : State} {d : ModeDescriptor} (hd : detected s = true)
    (hk : s.cfg.modes[k.toNat]? = some d) : execInit k s = withTable (.mode k.toNat) (finishInit k d) s := by
  simp only [execInit, gated_of_detected hd, modeOperand, hk]

/-- The end of an `INIT`, the VideoDescriptor written out (R37, R176). -/
theorem finishInit_recorded {k : U32} {s : State} {d : ModeDescriptor} (hl : s.cfg.modes.length ≤ 255)
    (hk : s.cfg.modes[k.toNat]? = some d) :
    finishInit k d s = { s with
      activeMode := k.setWidth 8, curFps := d.frameRate, phase := .configured, status := 0#32, busy := false
      trace := s.trace ++ [.notify ⟨k.setWidth 8, d.width, d.height, d.pixelFormatCode, d.colorSpace, d.frameRate⟩,
        .resp 0#32 s.res0 s.res1] } := by
  rw [finishInit_eq, done_notify_eq, videoDescriptor_recorded (s := recordMode k d _ s) hl hk rfl rfl]
  rfl

/-- Settles O30: past the gate `INIT` is its table and then `finishInit`. -/
theorem initAppliesModeTable : Obligations.InitAppliesModeTable := by
  intro a k s d hd hl hk hend hacc
  have htable : tableOf s.cfg (.mode k.toNat) = some d.table := by rw [tableOf, hk]; rfl
  calc exec (.init a k) s = withTable (.mode k.toNat) (finishInit k d) s := execInit_of_detected hd hk
    _ = _ := by
      rw [withTable_accepted htable hend hacc]
      exact congrArg Host.Outcome.next (finishInit_recorded hl hk)

/-! ## Streaming -/

theorem phaseAfterStreamOn_eq (p : Phase) : phaseAfterStreamOn p = if p = .configured then .streaming else p := by
  cases p <;> rfl

theorem phaseAfterStreamOff_eq (p : Phase) : phaseAfterStreamOff p = if p = .streaming then .configured else p := by
  cases p <;> rfl

/-- Settles O33: both commands are the stream-on table and then `finishStreamOn`. -/
theorem streamOnCommandsWriteTable : Obligations.StreamOnCommandsWriteTable := by
  intro a v s i hi hd hend hacc
  have hexec : exec i s = withTable .streamOn finishStreamOn s := by
    rcases hi with rfl | rfl <;> exact gated_of_detected hd _
  rw [hexec, withTable_accepted rfl hend hacc, finishStreamOn, phaseAfterStreamOn_eq]
  rfl

/-- Settles O34: both commands are the stream-off table and then `finishStreamOff`. -/
theorem streamOffCommandsWriteTable : Obligations.StreamOffCommandsWriteTable := by
  intro a v s i hi hd hend hacc
  have hexec : exec i s = withTable .streamOff finishStreamOff s := by
    rcases hi with rfl | rfl <;> exact gated_of_detected hd _
  rw [hexec, withTable_accepted rfl hend hacc, finishStreamOff, phaseAfterStreamOff_eq]
  rfl

/-- Writes accepted one list after the other (R207). -/
theorem writesAccepted_append (s : State) (ws ws' : List (Byte × Byte)) :
    writesAccepted s (ws ++ ws') ↔
      writesAccepted s ws ∧ writesAccepted { s with writes := s.writes + ws.length } ws' := by
  induction ws generalizing s with
  | nil => simp [writesAccepted]
  | cons x rest ih =>
    obtain ⟨a, v⟩ := x
    have hcount : (afterWrite a v s).writes + rest.length = s.writes + (rest.length + 1) := by
      rw [afterWrite_writes]
      omega
    rw [List.cons_append, writesAccepted_cons, writesAccepted_cons, ih, and_assoc]
    exact and_congr_right' (and_congr_right' (writesAccepted_congr (by rfl) hcount _))

/-- Settles O37: O33, then O34 in the state that it ends in. -/
theorem streamOnThenOffWritesBothTables : Obligations.StreamOnThenOffWritesBothTables := by
  intro a b v w s hd hon hoff hacc
  obtain ⟨hacc1, hacc2⟩ := (writesAccepted_append ..).1 hacc
  refine ⟨_, _, streamOnCommandsWriteTable a v s _ (.inl rfl) hd hon hacc1,
    streamOffCommandsWriteTable b w _ _ (.inl rfl) ?_ hoff ?_, ?_, ?_⟩
  · rw [detected_iff] at hd ⊢
    simp only
    split <;> simp [hd]
  · exact (writesAccepted_congr rfl rfl _).1 hacc2
  · rfl
  · rcases (detected_iff_phase s).1 hd with hp | hp | hp <;> simp [hp]

end Sys2Proof.Machine

/-! What a command does to `PHASE` and to the bus (spec 42_mode_state.md R171, R184; 43_register_table.md R209).
`CommandRun row p` is the run of a command with the row `row` of R209 still ahead of it that ends in phase `p` on success:
each access takes the next of the row, an error may end the run anywhere, and success needs the row used up. Every command
but `DETECT` is shown once to be such a run, of its own row and its own cell. -/

namespace Sys2Proof.Machine

/-! ## Bus accesses in a list of events -/

@[simp] theorem busAccesses_append (evs evs' : List Event) :
    busAccesses (evs ++ evs') = busAccesses evs ++ busAccesses evs' := List.filterMap_append

/-- The stores of the table `T` in its row of R209. -/
def tableAccesses (c : Cfg) (T : TableId) : List Access :=
  (tableWrites ((tableOf c T).getD [])).map fun p => .store p.1 p.2

theorem tableAccesses_of_some {c : Cfg} {T : TableId} {entries : List EntryWord} (h : tableOf c T = some entries) :
    tableAccesses c T = (tableWrites entries).map fun p => .store p.1 p.2 := by
  rw [tableAccesses, h]
  rfl

/-- The row of a command that applies a table (R209). -/
theorem accessesOf_of_table {i : Instr} {s : State} {T : TableId} (h : tableOfCommand i s = some T) :
    accessesOf s i = tableAccesses s.cfg T := by
  simp only [accessesOf, h, tableAccesses]

/-- The accesses of an accepted table are its writes (R207). -/
theorem busAccesses_tableEvents (entries : List EntryWord) :
    busAccesses (tableEvents entries) = (tableWrites entries).map fun p => .store p.1 p.2 := by
  induction entries with
  | nil => rfl
  | cons e rest ih =>
    obtain ⟨hk, -⟩ | ⟨hk, -⟩ | ⟨hk, -⟩ := entryKind_cases e
    · simp [tableEvents, tableWrites, hk, busAccesses]
    · simpa [tableEvents, tableWrites, hk, busAccesses] using ih
    · simpa [tableEvents, tableWrites, hk, busAccesses] using ih

/-- A table's writes go on past entries with no `TE` among them (R204, R207). -/
theorem tableWrites_append {before : List EntryWord} (h : tableHasEnd before = false) (after : List EntryWord) :
    tableWrites (before ++ after) = tableWrites before ++ tableWrites after := by
  induction before with
  | nil => rfl
  | cons e rest ih =>
    obtain ⟨hne, hrest⟩ : addressField e ≠ 0xFF#8 ∧ tableHasEnd rest = false := by simpa [tableHasEnd_cons] using h
    obtain ⟨-, ha, -⟩ | ⟨hk, -⟩ | ⟨hk, -⟩ := entryKind_cases e
    · exact absurd ha hne
    · simp [tableWrites, hk, ih hrest]
    · simp [tableWrites, hk, ih hrest]

theorem tableWrites_packEntry {a v : Byte} (hff : a ≠ 0xFF#8) (hfe : a ≠ 0xFE#8) (after : List EntryWord) :
    tableWrites (packEntry a v :: after) = (a, v) :: tableWrites after := by
  simp [tableWrites, entryKind, hff, hfe]

/-! ## The run of a command -/

/-- From `s` a command ended in `t`, its accesses the next of `row` and on success all of it, GPIO untouched; in phase `p`
on success, in the phase of `s` on an error. -/
structure CommandRun (row : List Access) (p : Phase) (s t : State) : Prop where
  success : t.status = 0#32 → t.phase = p
  failure : t.status ≠ 0#32 → t.phase = s.phase
  accesses : ∃ evs : List Event, t.trace = s.trace ++ evs ++ [.resp t.status t.res0 t.res1] ∧
    busAccesses evs <+: row ∧ (t.status = 0#32 → busAccesses evs = row) ∧ ∀ e ∈ evs, isGpioEvent e = false

section
variable {row : List Access} {p : Phase} {s b t : State}

/-- Activity before the rest of the run: registers other than `PHASE` are written and events appended. -/
theorem CommandRun.after {evs : List Event} (h : CommandRun row p b t) (hg : ∀ e ∈ evs, isGpioEvent e = false)
    (htr : b.trace = s.trace ++ evs := by rfl) (hp : b.phase = s.phase := by rfl) :
    CommandRun (busAccesses evs ++ row) p s t where
  success := h.success
  failure hne := (h.failure hne).trans hp
  accesses := by
    obtain ⟨evs', htr', hpre, hall, hg'⟩ := h.accesses
    refine ⟨evs ++ evs', by simp [htr', htr], ?_, fun hst => ?_, fun e he => (List.mem_append.1 he).elim (hg e) (hg' e)⟩
    · rw [busAccesses_append]
      exact List.prefix_append_right_inj _ |>.2 hpre
    · rw [busAccesses_append, hall hst]

theorem CommandRun.of_registers (h : CommandRun row p b t) (htr : b.trace = s.trace := by rfl)
    (hp : b.phase = s.phase := by rfl) : CommandRun row p s t :=
  h.after (evs := []) (by simp) (by simp [htr]) hp

theorem CommandRun.after_read {a : Byte} (h : CommandRun row p (afterRead a s) t) :
    CommandRun (.load a :: row) p s t :=
  h.after (evs := [.rd a _]) (by simp [isGpioEvent])

theorem CommandRun.after_write {a v : Byte} (h : CommandRun row p (afterWrite a v s) t) :
    CommandRun (.store a v :: row) p s t :=
  h.after (evs := [.wr a v _]) (by simp [isGpioEvent])

theorem statusCode_ne_zero (k : ErrorKind) : statusCode k ≠ 0#32 := by
  cases k <;> decide

/-- An error ends the run whatever is left of the row (R206, R231). -/
theorem commandRun_raise (row : List Access) (p : Phase) (k : ErrorKind) (s : State) : CommandRun row p s (raise k s) where
  success h := absurd h (statusCode_ne_zero k)
  failure _ := rfl
  accesses := ⟨[], by simp, List.nil_prefix, fun h => absurd h (statusCode_ne_zero k), by simp⟩

/-- An error between two accesses, those before it the first of the row. -/
theorem commandRun_raise_accessed {n m : Nat} {evs : List Event} (k : ErrorKind) (hpre : busAccesses evs <+: row)
    (hg : ∀ e ∈ evs, isGpioEvent e = false) : CommandRun row p s (raise k (accessed s n m evs)) := by
  obtain ⟨rest, rfl⟩ := hpre
  exact (commandRun_raise rest p k (accessed s n m evs)).after hg

/-- Success ends the run where nothing is left of the row. -/
theorem commandRun_done (htr : b.trace = s.trace := by rfl) : CommandRun [] b.phase s (done b) where
  success _ := rfl
  failure h := absurd rfl h
  accesses := ⟨[], by simp [htr], List.nil_prefix, fun _ => rfl, by simp⟩

/-- A notification is no bus access (R229). -/
theorem commandRun_notify (htr : b.trace = s.trace := by rfl) : CommandRun [] b.phase s (done (notify b)) where
  success _ := rfl
  failure h := absurd rfl h
  accesses := ⟨[.notify (videoDescriptor b)], by simp [htr], List.nil_prefix, fun _ => rfl, by simp [isGpioEvent]⟩

/-! ## Commands that apply a table -/

/-- A table's writes are its row, cut short at the first refused one; then the command's own end (R206, R207, R209). -/
theorem commandRun_withTable {T : TableId} {onOk : State → State} (h : withTable T onOk s = .next t)
    (hon : ∀ b : State, b.phase = s.phase → CommandRun [] p b (onOk b)) :
    CommandRun (tableAccesses s.cfg T) p s t := by
  have hg (entries : List EntryWord) : ∀ e ∈ tableEvents entries, isGpioEvent e = false := by
    obtain ⟨-, -, hkinds⟩ := tableEvents_writes entries
    exact fun e he => (hkinds e he).2
  obtain ⟨entries, hT, -, -, heq⟩ | ⟨_, before, after, a, v, hT, rfl, hend, hff, hfe, -, -, heq⟩ | ⟨-, heq⟩ :=
    withTable_cases T onOk s <;> rw [heq] at h <;> cases h
  · have hrun := (hon { s with
      tp := none, writes := s.writes + (tableWrites entries).length, trace := s.trace ++ tableEvents entries }
      rfl).after (s := s) (hg entries)
    rwa [List.append_nil, busAccesses_tableEvents, ← tableAccesses_of_some hT] at hrun
  · have hrow : tableAccesses s.cfg T = busAccesses (tableEvents before ++ [.wr a v .err]) ++
        (tableWrites after).map fun p => .store p.1 p.2 := by
      rw [tableAccesses_of_some hT, tableWrites_append hend, tableWrites_packEntry hff hfe, busAccesses_append,
        busAccesses_tableEvents]
      simp [busAccesses]
    rw [hrow]
    refine (commandRun_raise _ p .busFailure _).after (fun e he => ?_) (List.append_assoc ..)
    rcases List.mem_append.1 he with he | he
    · exact hg before e he
    · rw [List.mem_singleton.1 he]
      rfl

theorem commandRun_execInit {k : U32} (hd : detected s = true) (h : execInit k s = .next t) :
    CommandRun (tableAccesses s.cfg (.mode k.toNat)) .configured s t := by
  rw [execInit, gated_of_detected hd] at h
  split at h
  · cases h
    exact commandRun_raise ..
  · next d _ =>
    exact commandRun_withTable h fun b _ => commandRun_notify (b := recordMode k d .configured b)

/-- A `RESIZE` of the active mode makes no access (R36, R177). -/
theorem commandRun_execResize {k : U32} (hd : detected s = true) (h : execResize k s = .next t) :
    CommandRun (if s.activeMode.toNat = k.toNat then [] else tableAccesses s.cfg (.mode k.toNat))
      (phaseAfterResize s.phase) s t := by
  rw [execResize, gated_of_detected hd] at h
  split at h
  · cases h
    exact commandRun_raise ..
  · next d _ =>
    split
    · next heq =>
      rw [if_pos heq] at h
      cases h
      exact commandRun_notify (b := recordMode k d (phaseAfterResize s.phase) s)
    · next hne =>
      rw [if_neg hne] at h
      refine commandRun_withTable h fun b hb => ?_
      rw [← hb]
      exact commandRun_notify (b := recordMode k d (phaseAfterResize b.phase) b)

/-- The four streaming commands: a table, then a phase that `f` gives (R178 to R181). -/
theorem commandRun_stream {T : TableId} {f : Phase → Phase} {onOk : State → State} (hd : detected s = true)
    (h : gated s (withTable T onOk s) = .next t) (hon : ∀ b : State, onOk b = done { b with phase := f b.phase }) :
    CommandRun (tableAccesses s.cfg T) (f s.phase) s t := by
  rw [gated_of_detected hd] at h
  refine commandRun_withTable h fun b hb => ?_
  rw [hon, ← hb]
  exact commandRun_done (b := { b with phase := f b.phase })

/-! ## The timing and gain commands -/

theorem commandRun_commitTiming (r vt : U32) (s : State) : CommandRun [] s.phase s (commitTiming r vt s) :=
  commandRun_notify (b := retime r vt s)

theorem commandRun_writeHalves (r vt : U32) (s : State) :
    CommandRun [.store s.cfg.vtsLAddr (lowByte vt), .store s.cfg.vtsHAddr (highByte vt)] s.phase s
      (writeHalves r vt s) := by
  refine .after_write ?_
  unfold writeHalves memWrite
  cases writeReply s 0 s.cfg.vtsLAddr (lowByte vt) with
  | err => exact commandRun_raise ..
  | ok =>
    refine .after_write ?_
    simp only
    cases writeReply (afterWrite s.cfg.vtsLAddr (lowByte vt) s) 0 _ (highByte vt) with
    | err => exact commandRun_raise ..
    | ok => exact commandRun_commitTiming r vt (afterWrite _ _ (afterWrite _ _ s))

/-- Step 5 once the group-write register was read (R157). -/
theorem commandRun_programTiming {c : Byte} (r vt : U32) (hc : readReply s 0 s.cfg.grpCtrlAddr = .ok c) :
    CommandRun [.load s.cfg.grpCtrlAddr, .store s.cfg.grpCtrlAddr (c ||| 0x80#8), .store s.cfg.vtsLAddr (lowByte vt),
      .store s.cfg.vtsHAddr (highByte vt)] s.phase s (programTiming r vt s) := by
  refine .after_read (.after_write ?_)
  simp only [programTiming, memRead, hc, memWrite]
  cases writeReply (afterRead s.cfg.grpCtrlAddr s) 0 _ (c ||| 0x80#8) with
  | err => exact commandRun_raise ..
  | ok => exact commandRun_writeHalves r vt (afterWrite _ _ (afterRead _ s))

/-- The row of `SET_FPS` once its three loads are answered (R155, R157, R209). -/
theorem fpsAccesses_of_ok {r : U32} {lo hi c : Byte} (hlo : readReply s 0 s.cfg.htsLAddr = .ok lo)
    (hhi : readReply s 1 s.cfg.htsHAddr = .ok hi) (hc : readReply s 2 s.cfg.grpCtrlAddr = .ok c) :
    let vt : U32 := BitVec.ofNat 32 (verticalTotal s.cfg r (horizontalTotal hi lo))
    fpsAccesses s r =
      [.load s.cfg.htsLAddr, .load s.cfg.htsHAddr, .load s.cfg.grpCtrlAddr, .store s.cfg.grpCtrlAddr (c ||| 0x80#8),
       .store s.cfg.vtsLAddr (lowByte vt), .store s.cfg.vtsHAddr (highByte vt)] := by
  simp only [fpsAccesses, hlo, hhi, hc, lowByte_ofNat, highByte_ofNat, verticalTotal, denominator_eq, numerator_eq,
    horizontalTotal_eq]
  rfl

/-- Past the rate check `SET_FPS` runs through its row: an unanswered load or a horizontal total of 0 ends it before the
stores (R154, R157, R209). -/
theorem commandRun_measureTiming (r : U32) (s : State) :
    CommandRun (fpsAccesses s r) s.phase s (measureTiming r s) := by
  cases hlo : readReply s 0 s.cfg.htsLAddr with
  | err =>
    rw [measureTiming_of_low_err hlo]
    exact commandRun_raise_accessed _ ⟨_, rfl⟩ (by simp [isGpioEvent])
  | ok lo =>
    cases hhi : readReply s 1 s.cfg.htsHAddr with
    | err =>
      rw [measureTiming_of_high_err hlo hhi]
      exact commandRun_raise_accessed _ ⟨_, rfl⟩ (by simp [isGpioEvent])
    | ok hi =>
      rw [measureTiming_of_ok hlo hhi]
      by_cases hzero : horizontalTotal hi lo = 0
      · rw [hzero, computeTiming_of_zero]
        exact CommandRun.of_registers (b := setLog faultBit s)
          (commandRun_raise_accessed _ ⟨_, rfl⟩ (by simp [isGpioEvent]))
      rw [computeTiming_of_ne_zero hzero]
      cases hc : readReply s 2 s.cfg.grpCtrlAddr with
      | err =>
        rw [programTiming_of_read_err hc]
        exact commandRun_raise_accessed _ ⟨_, rfl⟩ (by simp [isGpioEvent])
      | ok c =>
        rw [fpsAccesses_of_ok hlo hhi hc]
        exact (commandRun_programTiming (s := accessed s 2 0 _) r _ hc).after
          (evs := [.rd s.cfg.htsLAddr (.ok lo), .rd s.cfg.htsHAddr (.ok hi)]) (by simp [isGpioEvent])

theorem commandRun_writeExposure (v : U32) (s : State) :
    CommandRun [.store s.cfg.expoLAddr (BitVec.ofNat 8 v.toNat), .store s.cfg.expoHAddr (BitVec.ofNat 8 (v.toNat / 256))]
      s.phase s (writeExposure v s) := by
  rw [← lowByte_eq_ofNat, ← highByte_eq_ofNat]
  refine .after_write (.after_write ?_)
  unfold writeExposure
  exact iteInduction (fun _ => commandRun_raise ..) (fun _ => commandRun_done (b := afterWrite _ _ (afterWrite _ _ s)))

theorem commandRun_writeGain (code : Byte) (achieved : U32) (s : State) :
    CommandRun [.store s.cfg.againAddr code] s.phase s (writeGain code achieved s) := by
  refine .after_write ?_
  unfold writeGain memWrite
  cases writeReply s 0 s.cfg.againAddr code with
  | err => exact (commandRun_raise _ _ .busFailure (setResults _ _ (afterWrite _ _ s))).of_registers
  | ok => exact commandRun_done (b := setResults _ _ (afterWrite _ _ s))

theorem commandRun_execSetFps {r : U32} (hd : detected s = true) (h : execSetFps r s = .next t) :
    CommandRun (fpsAccesses s r) s.phase s t := by
  rw [execSetFps, gated_of_detected hd] at h
  cases h
  split
  · exact commandRun_measureTiming r s
  · exact commandRun_raise ..

end

/-! ## Every command but `DETECT` -/

/-- The dash of a device command's column, in both phases the gate refuses (R170, R171). -/
theorem cell_of_not_detected {i : Instr} {s : State} (hi : isDeviceCommand i = true) (hd : detected s = false) :
    (phaseColumn i).cell s.phase = none := by
  have hdash : (phaseColumn i).preDetect = none ∧ (phaseColumn i).detectFailed = none := by
    cases i with
    | init | resize | streamOn | streamOff | prepareChange | finishChange | setIntegrationTime | setAnalogGain
    | setFps => exact ⟨rfl, rfl⟩
    | detect | setDigitalGain | getBlackLevel | gainEncode | gainDecode | dgainEncode | unknown | te | td | tw =>
      cases hi
  obtain ⟨hpre, hfail⟩ := hdash
  rcases (detected_eq_false_iff s).1 hd with hp | hp <;> rw [hp]
  · exact hpre
  · exact hfail

/-- The three cells past the gate, where `f` gives them (R171). -/
theorem cell_of_detected {c : PhaseColumn} {s : State} (f : Phase → Phase) (hd : detected s = true)
    (hu : c.uninitialized = some (f .uninitialized) := by rfl) (hc : c.configured = some (f .configured) := by rfl)
    (hs : c.streaming = some (f .streaming) := by rfl) : c.cell s.phase = some (f s.phase) := by
  rcases (detected_iff_phase s).1 hd with hp | hp | hp <;> rw [hp]
  · exact hu
  · exact hc
  · exact hs

/-- Past the gate a device command is a run of its row that ends in its cell (R171, R209). -/
theorem commandRun_deviceCommand {i : Instr} {s t : State} (hi : isDeviceCommand i = true) (hd : detected s = true)
    (h : exec i s = .next t) :
    ∃ p, (phaseColumn i).cell s.phase = some p ∧ CommandRun (accessesOf s i) p s t := by
  cases i with
  | init => exact ⟨_, cell_of_detected (fun _ => .configured) hd, commandRun_execInit hd h⟩
  | resize a k =>
    refine ⟨_, cell_of_detected phaseAfterResize hd, ?_⟩
    have hrow : accessesOf s (.resize a k) =
        if s.activeMode.toNat = k.toNat then [] else tableAccesses s.cfg (.mode k.toNat) := by
      split
      · next heq => simp [accessesOf, tableOfCommand, heq]
      · next hne => exact accessesOf_of_table (if_neg hne)
    rw [hrow]
    exact commandRun_execResize hd h
  | streamOn | finishChange =>
    exact ⟨_, cell_of_detected phaseAfterStreamOn hd, commandRun_stream hd h fun _ => rfl⟩
  | streamOff | prepareChange =>
    exact ⟨_, cell_of_detected phaseAfterStreamOff hd, commandRun_stream hd h fun _ => rfl⟩
  | setIntegrationTime =>
    rw [exec, execSetIntegrationTime, gated_of_detected hd] at h
    cases h
    exact ⟨_, cell_of_detected id hd, commandRun_writeExposure ..⟩
  | setAnalogGain =>
    rw [exec, execSetAnalogGain, gated_of_detected hd] at h
    cases h
    exact ⟨_, cell_of_detected id hd, commandRun_writeGain ..⟩
  | setFps => exact ⟨_, cell_of_detected id hd, commandRun_execSetFps hd h⟩
  | detect | setDigitalGain | getBlackLevel | gainEncode | gainDecode | dgainEncode | unknown | te | td | tw => cases hi

/-- A command that touches no device has an empty row and leaves every phase as it is (R170, R171, R209). -/
theorem commandRun_of_no_device {i : Instr} {s t : State} (hi : isCommand i = true) (hdev : isDeviceCommand i = false)
    (hdet : ∀ a v, i ≠ .detect a v) (h : exec i s = .next t) :
    (phaseColumn i).cell s.phase = some s.phase ∧ CommandRun (accessesOf s i) s.phase s t := by
  have htables : (∀ p, (phaseColumn i).cell p = some p) ∧ accessesOf s i = [] := by
    cases i with
    | detect a v => exact absurd rfl (hdet a v)
    | setDigitalGain | getBlackLevel | gainEncode | gainDecode | dgainEncode | unknown | te | td | tw =>
      exact ⟨fun p => by cases p <;> rfl, rfl⟩
    | init | resize | streamOn | streamOff | prepareChange | finishChange | setIntegrationTime | setAnalogGain
    | setFps => cases hdev
  obtain ⟨hcell, hrow⟩ := htables
  obtain ⟨b, hb, hphase, htr⟩ := exec_of_no_device hi hdev hdet s
  obtain rfl : done b = t := by simpa [hb] using h
  rw [hrow, ← hphase]
  exact ⟨hcell _, commandRun_done htr⟩

/-! ## `DETECT` -/

/-- Events that neither read nor write make no bus access. -/
theorem busAccesses_eq_nil {evs : List Event} (hr : readAddresses evs = []) (hw : writeAddresses evs = []) :
    busAccesses evs = [] := by
  simp only [readAddresses, writeAddresses, busAccesses, List.filterMap_eq_nil_iff] at hr hw ⊢
  intro e he
  cases e with
  | rd => exact absurd (hr _ he) (by simp)
  | wr => exact absurd (hw _ he) (by simp)
  | sleep | gpioReq | gpioSet | gpioRel | notify | resp => rfl

/-- The pin stages of `DETECT` make no bus access (R173, R174). -/
theorem afterPins_trace (s : State) : ∃ evs, (afterPins s).trace = s.trace ++ evs ∧ busAccesses evs = [] := by
  have hnone (pin : Option Nat) (answer : Reply) (seq : List (Level × Nat)) :
      busAccesses (pinEvents pin answer seq) = [] := by
    obtain ⟨hr, hw, -⟩ := accesses_pinEvents pin answer seq
    exact busAccesses_eq_nil hr hw
  exact ⟨_, List.append_assoc .., by rw [busAccesses_append, hnone, hnone]; rfl⟩

/-- `DETECT` in `PreDetect` ends in `Uninitialized` or, failing, in `DetectFailed` (R172). -/
theorem DetectEnd.phase {s t : State} (h : DetectEnd s t) :
    (t.status = 0#32 → t.phase = .uninitialized) ∧ (t.status ≠ 0#32 → t.phase = .detectFailed) := by
  cases h with
  | ok _ _ ht => exact ht ▸ ⟨fun _ => rfl, fun hne => absurd rfl hne⟩
  | high k _ _ ht | low k _ _ _ ht => exact ht ▸ ⟨fun h => absurd h (statusCode_ne_zero k), fun _ => rfl⟩

/-- The bus accesses of `DETECT` in `PreDetect` are the loads of the identity bytes, the high one first (R175, R209). -/
theorem DetectEnd.accesses {s t : State} (h : DetectEnd s t) :
    ∃ evs, t.trace = s.trace ++ evs ++ [.resp t.status t.res0 t.res1] ∧
      busAccesses evs <+: [.load s.cfg.idHAddr, .load s.cfg.idLAddr] := by
  obtain ⟨pins, hpins, hnone⟩ := afterPins_trace s
  have hreads : ∃ evs, t.trace = (afterPins s).trace ++ evs ++ [.resp t.status t.res0 t.res1] ∧
      busAccesses evs <+: [.load s.cfg.idHAddr, .load s.cfg.idLAddr] := by
    cases h with
    | ok _ _ ht => exact ht ▸ ⟨_, rfl, List.prefix_rfl⟩
    | high _ _ _ ht => exact ht ▸ ⟨_, rfl, _, rfl⟩
    | low _ _ _ _ ht => exact ht ▸ ⟨_, rfl, List.prefix_rfl⟩
  obtain ⟨evs, htr, hpre⟩ := hreads
  exact ⟨pins ++ evs, by rw [htr, hpins, List.append_assoc s.trace], by rwa [busAccesses_append, hnone]⟩

/-! ## The statements about every command -/

/-- What a command can do: be refused with `NotDetected` where its cell is the dash, detect, or be a run that ends in its
cell, of its row or, for a `DETECT` that has nothing to do, of none of it. -/
inductive CommandOutcome (i : Instr) (s t : State) : Prop
  | refused (hcell : (phaseColumn i).cell s.phase = none) (ht : t = raise .notDetected s)
  | detect (a : Byte) (v : U32) (hi : i = .detect a v) (hp : s.phase = .preDetect) (h : DetectEnd s t)
  | run (p : Phase) (row : List Access) (hcell : (phaseColumn i).cell s.phase = some p)
      (hne : ¬((∃ a v, i = .detect a v) ∧ s.phase = .preDetect)) (hpre : row <+: accessesOf s i)
      (hrow : isDeviceCommand i = true → row = accessesOf s i) (h : CommandRun row p s t)

theorem commandOutcome_detect {a : Byte} {v : U32} {s t : State} (h : exec (.detect a v) s = .next t) :
    CommandOutcome (.detect a v) s t := by
  cases hd : detected s with
  | true =>
    obtain ⟨hpre, -⟩ := (detected_iff s).1 hd
    rw [exec_detect_of_detected hd] at h
    cases h
    exact .run _ [] (cell_of_detected id hd) (fun hp => hpre hp.2) List.nil_prefix nofun commandRun_done
  | false =>
    rcases (detected_eq_false_iff s).1 hd with hp | hp
    · rw [exec_detect_of_preDetect hp] at h
      cases h
      exact .detect a v rfl hp (detectEnd_identityCheck s)
    · rw [exec_detect_of_detectFailed hp] at h
      cases h
      exact .refused (by rw [hp]; rfl) rfl

theorem commandOutcome_exec {i : Instr} {s t : State} (hi : isCommand i = true) (h : exec i s = .next t) :
    CommandOutcome i s t := by
  by_cases hdet : ∃ a v, i = .detect a v
  · obtain ⟨a, v, rfl⟩ := hdet
    exact commandOutcome_detect h
  have hne : ¬((∃ a v, i = .detect a v) ∧ s.phase = .preDetect) := fun hp => hdet hp.1
  cases hdev : isDeviceCommand i with
  | true =>
    cases hd : detected s with
    | true =>
      obtain ⟨p, hcell, hrun⟩ := commandRun_deviceCommand hdev hd h
      exact .run p _ hcell hne List.prefix_rfl (fun _ => rfl) hrun
    | false =>
      rw [exec_of_not_detected hdev hd] at h
      cases h
      exact .refused (cell_of_not_detected hdev hd) rfl
  | false =>
    obtain ⟨hcell, hrun⟩ := commandRun_of_no_device hi hdev (fun a v heq => hdet ⟨a, v, heq⟩) h
    exact .run _ _ hcell hne List.prefix_rfl (fun _ => rfl) hrun

/-- Settles O22, by what a command can do. -/
theorem phaseFollowsTransitionTable : Obligations.PhaseFollowsTransitionTable := by
  intro i s t hi h
  cases commandOutcome_exec hi h with
  | refused hcell ht =>
    rw [hcell, ht]
    exact ⟨rfl, rfl, rfl⟩
  | detect a v heq hp hend =>
    subst heq
    obtain ⟨hok, hfailed⟩ := hend.phase
    rw [hp]
    exact ⟨hok, fun hst => ⟨fun _ => hfailed hst, fun hne => absurd ⟨⟨a, v, rfl⟩, rfl⟩ hne⟩⟩
  | run p row hcell hne _ _ hrun =>
    rw [hcell]
    exact ⟨hrun.success, fun hst => ⟨fun hp => absurd hp hne, fun _ => hrun.failure hst⟩⟩

/-- Settles O24, by what a command can do. -/
theorem busAccessesFollowTable : Obligations.BusAccessesFollowTable := by
  intro i s t hi h
  cases commandOutcome_exec hi h with
  | refused _ ht =>
    subst ht
    obtain ⟨evs, htr, hpre, hall, hg⟩ := (commandRun_raise (accessesOf s i) s.phase .notDetected s).accesses
    exact ⟨evs, htr, hpre, fun _ => hall, fun _ => hg⟩
  | detect a v heq _ hend =>
    subst heq
    obtain ⟨evs, htr, hpre⟩ := hend.accesses
    exact ⟨evs, htr, hpre, nofun, fun hne => absurd rfl (hne a v)⟩
  | run p row _ _ hrowpre hrow hrun =>
    obtain ⟨evs, htr, hpre, hall, hg⟩ := hrun.accesses
    exact ⟨evs, htr, hpre.trans hrowpre, fun hdev hst => (hall hst).trans (hrow hdev), fun _ => hg⟩

end Sys2Proof.Machine

/-! Register tables (spec 43_register_table.md R200 to R208; 60_exceptions.md R220): what one entry does, that the
walker `APPLY` is a run of entry steps, and that no state with the invariant is stopped. -/

namespace Sys2Proof.Machine

/-! ## Entries -/

section Entries

variable {s : State} {p : TablePtr} {a v : Byte}

/-- An accepted write, then the next entry (R202). -/
theorem exec_tw_of_ok (hp : s.tp = some p) (hr : writeReply s 0 a v = .ok) :
    exec (.tw a v) s = .next (advanceTable (afterWrite a v s)) := by
  simp [exec, execTw, hp, walkWrite, memWrite, hr]

/-- A refused write ends the calling command (R206). -/
theorem exec_tw_of_err (hp : s.tp = some p) (hr : writeReply s 0 a v = .err) :
    exec (.tw a v) s = .next (raise .busFailure (leaveTable (afterWrite a v s))) := by
  simp [exec, execTw, hp, walkWrite, memWrite, hr]

/-- A delay, then the next entry (R205). -/
theorem exec_td_of_walk (hp : s.tp = some p) : exec (.td v) s = .next (walkDelay v s) := by
  simp [exec, execTd, hp]

/-- The table ends and the calling command runs on (R204). -/
theorem exec_te_of_resume {t : State} (hp : s.tp = some p) (h : resumeCommand (leaveTable s) = some t) :
    exec (.te v) s = .next t := by
  simp [exec, execTe, hp, h]

end Entries

/-- Settles O38: the walk's own updates, written out. -/
theorem tableEntriesWriteAndDelay : Obligations.TableEntriesWriteAndDelay := by
  intro a v s p hp
  refine ⟨fun hr => ?_, fun hr => ?_, ?_⟩
  · rw [exec_tw_of_ok hp hr]
    simp [advanceTable, afterWrite, hp, hr]
  · rw [exec_tw_of_err hp hr]
    simp [raise, finish, statusCode, leaveTable, afterWrite, hr]
  · rw [exec_td_of_walk hp]
    simp [walkDelay, advanceTable, sleep, emit, hp]

/-! ## The command in progress -/

theorem resumeCommand_init {s : State} {d : ModeDescriptor} (hop : s.op = 0x02#8)
    (hk : s.cfg.modes[s.arg0.toNat]? = some d) : resumeCommand s = some (finishInit s.arg0 d s) := by
  simp [resumeCommand, hop, modeOperand, hk]

theorem resumeCommand_resize {s : State} {d : ModeDescriptor} (hop : s.op = 0x14#8)
    (hk : s.cfg.modes[s.arg0.toNat]? = some d) : resumeCommand s = some (finishResize s.arg0 d s) := by
  simp [resumeCommand, hop, modeOperand, hk]

theorem resumeCommand_streamOn {s : State} (hop : s.op = 0x03#8 ∨ s.op = 0x16#8) :
    resumeCommand s = some (finishStreamOn s) := by
  rcases hop with hop | hop <;> simp [resumeCommand, hop]

theorem resumeCommand_streamOff {s : State} (hop : s.op = 0x04#8 ∨ s.op = 0x15#8) :
    resumeCommand s = some (finishStreamOff s) := by
  rcases hop with hop | hop <;> simp [resumeCommand, hop]

/-- Settles O39: each calling command's own end, in the state that has left the table. -/
theorem tableEndResumesCommand : Obligations.TableEndResumesCommand := by
  intro v s p hp
  refine ⟨fun hop => ?_, fun hop => ?_, fun d hop hl hk => ?_⟩
  · rw [exec_te_of_resume hp (resumeCommand_streamOn (s := leaveTable s) hop), finishStreamOn, phaseAfterStreamOn_eq]
    rfl
  · rw [exec_te_of_resume hp (resumeCommand_streamOff (s := leaveTable s) hop), finishStreamOff, phaseAfterStreamOff_eq]
    rfl
  · rcases hop with hop | hop
    · rw [exec_te_of_resume hp (resumeCommand_init (s := leaveTable s) hop hk),
        leaveTable_arg0, finishInit_recorded (s := leaveTable s) hl hk, if_pos (.inl hop)]
      rfl
    · have hphase : (s.op = 0x02#8 ∨ s.phase = .uninitialized) ↔ s.phase = .uninitialized := by simp [hop]
      rw [exec_te_of_resume hp (resumeCommand_resize (s := leaveTable s) hop hk),
        leaveTable_arg0, finishResize_recorded (s := leaveTable s) hl hk]
      simp only [hphase]
      rfl

/-! ## Commands that apply a table -/

/-- The operand registers of `s` hold the word of the command `i` (R21, R91). -/
def InProgress (i : Instr) (s : State) : Prop := encode i = .command (packCommand s.op s.arg1 s.arg0)

theorem InProgress.op_eq {i : Instr} {s : State} {op a : Byte} {v : U32} (h : InProgress i s)
    (hi : encode i = .command (packCommand op a v)) : s.op = op := by
  simpa using congrArg opField (Encoded.command.inj (h.symm.trans hi))

theorem InProgress.arg0_eq {i : Instr} {s : State} {op a : Byte} {v : U32} (h : InProgress i s)
    (hi : encode i = .command (packCommand op a v)) : s.arg0 = v := by
  simpa using congrArg arg0Field (Encoded.command.inj (h.symm.trans hi))

/-- An accepted command is the one in progress. -/
theorem inProgress_accept (w : CommandWord) (s : State) : InProgress (decodeCommand w) (accept w s) :=
  (encode_decodeFields _ _ _).2

/-- Past the gate a command with a table is that table and then an end, which is the one a `TE` resumes while the command
is in progress (R201, R208). -/
theorem exec_eq_withTable {i : Instr} {s : State} {T : TableId} {entries : List EntryWord} (hd : detected s = true)
    (hT : tableOfCommand i s = some T) (ht : tableOf s.cfg T = some entries) :
    ∃ onOk : State → State, exec i s = withTable T onOk s ∧
      ∀ b : State, b.cfg = s.cfg → InProgress i b → resumeCommand b = some (onOk b) := by
  cases i with
  | init a k =>
    cases hT
    obtain ⟨d, hk, -⟩ := Option.map_eq_some_iff.1 ht
    refine ⟨finishInit k d, execInit_of_detected hd hk, fun b hc hb => ?_⟩
    obtain rfl : b.arg0 = k := hb.arg0_eq rfl
    exact resumeCommand_init (hb.op_eq rfl) (by rwa [hc])
  | resize a k =>
    obtain ⟨hne, hT⟩ := Option.ite_none_left_eq_some.1 hT
    cases hT
    obtain ⟨d, hk, -⟩ := Option.map_eq_some_iff.1 ht
    refine ⟨finishResize k d, execResize_of_other hd hk hne, fun b hc hb => ?_⟩
    obtain rfl : b.arg0 = k := hb.arg0_eq rfl
    exact resumeCommand_resize (hb.op_eq rfl) (by rwa [hc])
  | streamOn | finishChange =>
    cases hT
    exact ⟨finishStreamOn, gated_of_detected hd _, fun b _ hb => resumeCommand_streamOn (by simp [hb.op_eq rfl])⟩
  | streamOff | prepareChange =>
    cases hT
    exact ⟨finishStreamOff, gated_of_detected hd _, fun b _ hb => resumeCommand_streamOff (by simp [hb.op_eq rfl])⟩
  | detect | setIntegrationTime | setAnalogGain | setDigitalGain | getBlackLevel | setFps | gainEncode | gainDecode
  | dgainEncode | unknown | te | td | tw => cases hT

/-- Settles O35: the command is its table, and the table's first refused write ends it. -/
theorem failedTableWriteAborts : Obligations.FailedTableWriteAborts := by
  intro i s T before after a v hd hT ht hend hff hfe hacc herr
  obtain ⟨onOk, hexec, -⟩ := exec_eq_withTable hd hT ht
  rw [hexec, withTable_refused ht hend hff hfe hacc herr, raise, finish, List.append_assoc _ [_]]
  rfl

/-! ## The walker as a run of entry steps -/

theorem exists_stepsTo_cons {s u t : State} (h : step s = .next u) (hu : ∃ n, stepsTo n u t) : ∃ n, stepsTo n s t := by
  obtain ⟨n, hn⟩ := hu
  exact ⟨n + 1, u, h, hn⟩

/-- Where the command in progress ends once `APPLY` has returned (R206, R208). -/
def commandEndOf : ApplyResult → Option State
  | .ok b => resumeCommand b
  | .err b => some (raise .busFailure b)
  | .overrun => none

/-- From any entry of a table single-entry steps lead where the loop of `APPLY` does from there (R201). -/
theorem exists_stepsTo_of_applyFrom {entries rest : List EntryWord} {s t : State} {p : TablePtr} (hp : s.tp = some p)
    (ht : tableOf s.cfg p.table = some entries) (hrest : entries.drop p.index = rest)
    (h : commandEndOf (applyFrom rest s) = some t) : ∃ n, stepsTo n s t := by
  induction rest generalizing s p with
  | nil => cases h
  | cons e rest ih =>
    have he : entries[p.index]? = some e := by rw [← List.head?_drop, hrest, List.head?_cons]
    have hnext : entries.drop (p.index + 1) = rest := by rw [← List.tail_drop, hrest, List.tail_cons]
    have hstep := step_entry hp ht he
    rcases entryKind_cases e with ⟨hk, -, hd⟩ | ⟨hk, -, hd⟩ | ⟨hk, -, -, hd⟩ <;> rw [hd] at hstep <;>
      simp only [applyFrom, hk] at h
    · exact exists_stepsTo_cons (hstep.trans (exec_te_of_resume hp h)) ⟨0, rfl⟩
    · exact exists_stepsTo_cons (hstep.trans (exec_td_of_walk hp))
        (ih (p := { p with index := p.index + 1 }) (by simp [walkDelay, hp]) ht hnext h)
    · simp only [walkWrite, memWrite] at h
      cases hr : writeReply s 0 (addressField e) (valueField e) with
      | ok =>
        rw [hr] at h
        exact exists_stepsTo_cons (hstep.trans (exec_tw_of_ok hp hr))
          (ih (p := { p with index := p.index + 1 }) (by simp [hp]) ht hnext h)
      | err =>
        rw [hr] at h
        cases h
        exact exists_stepsTo_cons (hstep.trans (exec_tw_of_err hp hr)) ⟨0, rfl⟩

/-- A table-applying command ends where its table's end leads, if that resumes it (R206, R208). -/
theorem commandEndOf_of_withTable {T : TableId} {onOk : State → State} {s t : State} {entries : List EntryWord}
    (ht : tableOf s.cfg T = some entries) (h : withTable T onOk s = .next t)
    (hon : ∀ b : State, applyFrom entries (startTable T s) = .ok b → resumeCommand b = some (onOk b)) :
    commandEndOf (applyFrom entries (startTable T s)) = some t := by
  simp only [withTable, apply, ht] at h
  cases ha : applyFrom entries (startTable T s) with
  | ok b =>
    rw [ha] at h
    cases h
    exact hon b ha
  | err b =>
    rw [ha] at h
    cases h
    rfl
  | overrun =>
    rw [ha] at h
    cases h

/-- Settles O40: the command is its table run by `APPLY` and then its end, and `APPLY` is a run of entry steps that ends
by resuming it. -/
theorem entryStepsAgreeWithCommand : Obligations.EntryStepsAgreeWithCommand := by
  intro w s t T entries hd hT ht h
  obtain ⟨onOk, hexec, hresume⟩ := exec_eq_withTable (s := accept w s) hd hT ht
  rw [hexec] at h
  refine exists_stepsTo_of_applyFrom (p := ⟨T, 0⟩) rfl ht rfl (commandEndOf_of_withTable ht h fun b hb => ?_)
  obtain ⟨-, -, rfl⟩ := applyFrom_ok hb
  exact hresume _ rfl (inProgress_accept w s)

/-! ## No step is stopped -/

/-- Every table of a well-formed CFG has an end (R11, R204). -/
theorem tableHasEnd_of_cfgOk {c : Cfg} {T : TableId} {entries : List EntryWord} (hc : cfgOk c = true)
    (ht : tableOf c T = some entries) : tableHasEnd entries = true := by
  have hwf := (cfgOk_iff c).1 hc
  rw [tableHasEnd_iff]
  cases T with
  | mode k =>
    obtain ⟨d, hk, rfl⟩ := Option.map_eq_some_iff.1 ht
    exact hwf.mode_tables d (List.mem_of_getElem? hk)
  | streamOn =>
    cases ht
    exact hwf.stream_on_table
  | streamOff =>
    cases ht
    exact hwf.stream_off_table

theorem goesOn_gated {s : State} {o : Host.Outcome State Fault Refusal} (h : goesOn o) : goesOn (gated s o) := by
  unfold gated
  split
  · exact h
  · exact ⟨_, rfl⟩

/-- A table of a well-formed CFG is not overrun (R204). -/
theorem goesOn_withTable {T : TableId} {onOk : State → State} {s : State} {entries : List EntryWord}
    (hc : cfgOk s.cfg = true) (ht : tableOf s.cfg T = some entries) : goesOn (withTable T onOk s) := by
  obtain ⟨_, -, -, -, heq⟩ | ⟨_, _, _, _, _, -, -, -, -, -, -, -, heq⟩ | ⟨hno, -⟩ := withTable_cases T onOk s
  · exact ⟨_, heq⟩
  · exact ⟨_, heq⟩
  · exact absurd (tableHasEnd_of_cfgOk hc ht) (by simp [hno entries ht])

theorem tableOf_mode {c : Cfg} {k : U32} {d : ModeDescriptor} (hk : modeOperand c k = some d) :
    tableOf c (.mode k.toNat) = some d.table :=
  Option.map_eq_some_iff.2 ⟨d, hk, rfl⟩

/-- With a well-formed CFG every command answers a next state (R220). -/
theorem goesOn_command {i : Instr} {s : State} (hi : isCommand i = true) (hc : cfgOk s.cfg = true) :
    goesOn (exec i s) := by
  cases i with
  | init _ k =>
    refine goesOn_gated ?_
    split
    · exact ⟨_, rfl⟩
    · next hk => exact goesOn_withTable hc (tableOf_mode hk)
  | resize _ k =>
    refine goesOn_gated ?_
    split
    · exact ⟨_, rfl⟩
    · next hk =>
      split
      · exact ⟨_, rfl⟩
      · exact goesOn_withTable hc (tableOf_mode hk)
  | streamOn | streamOff | prepareChange | finishChange => exact goesOn_gated (goesOn_withTable hc rfl)
  | setIntegrationTime | setAnalogGain | setFps => exact goesOn_gated ⟨_, rfl⟩
  | detect | setDigitalGain | getBlackLevel | gainEncode | gainDecode | dgainEncode | unknown => exact ⟨_, rfl⟩
  | te | td | tw => cases hi

/-- Which opcodes apply which table (R96, R200). -/
theorem callerTable_cases {op : Byte} {arg0 : U32} {T : TableId} (h : callerTable op arg0 = some T) :
    ((op = 0x02#8 ∨ op = 0x14#8) ∧ T = .mode arg0.toNat) ∨ (op = 0x03#8 ∨ op = 0x16#8) ∨
      (op = 0x04#8 ∨ op = 0x15#8) := by
  unfold callerTable at h
  split_ifs at h with hmode hon hoff
  · exact .inl ⟨hmode, (Option.some.inj h).symm⟩
  · exact .inr (.inl hon)
  · exact .inr (.inr hoff)

/-- A command whose table CFG has can be resumed (R204, R208). -/
theorem resumeCommand_of_callerTable {s : State} {T : TableId} {entries : List EntryWord}
    (h : callerTable s.op s.arg0 = some T) (ht : tableOf s.cfg T = some entries) : ∃ t, resumeCommand s = some t := by
  obtain ⟨hop, rfl⟩ | hop | hop := callerTable_cases h
  · obtain ⟨d, hk, -⟩ := Option.map_eq_some_iff.1 ht
    rcases hop with hop | hop
    · exact ⟨_, resumeCommand_init hop hk⟩
    · exact ⟨_, resumeCommand_resize hop hk⟩
  · exact ⟨_, resumeCommand_streamOn hop⟩
  · exact ⟨_, resumeCommand_streamOff hop⟩

/-- An entry of the table of the command in `OP` answers a next state. -/
theorem goesOn_entry {e : EntryWord} {s : State} {p : TablePtr} {entries : List EntryWord} (hp : s.tp = some p)
    (hcall : callerTable s.op s.arg0 = some p.table) (ht : tableOf s.cfg p.table = some entries) :
    goesOn (exec (decodeEntry e) s) := by
  rcases entryKind_cases e with ⟨-, -, hd⟩ | ⟨-, -, hd⟩ | ⟨-, -, -, hd⟩ <;> rw [hd]
  · obtain ⟨t, hresume⟩ := resumeCommand_of_callerTable (s := leaveTable s) hcall ht
    exact ⟨t, exec_te_of_resume hp hresume⟩
  · exact ⟨_, exec_td_of_walk hp⟩
  · cases hr : writeReply s 0 (addressField e) (valueField e) with
    | ok => exact ⟨_, exec_tw_of_ok hp hr⟩
    | err => exact ⟨_, exec_tw_of_err hp hr⟩

/-- With a `TE` still ahead there is an entry to run (R204). -/
theorem exists_entry_of_tableHasEnd {entries : List EntryWord} {n : Nat} (h : tableHasEnd (entries.drop n) = true) :
    ∃ e, entries[n]? = some e := by
  rw [← List.head?_drop]
  cases hdrop : entries.drop n with
  | nil => simp [hdrop] at h
  | cons e rest => exact ⟨e, rfl⟩

/-- An idle SCC detaches when the host says so (R262). -/
theorem step_detach {s : State} {rest : List HostInput} (htp : s.tp = none) (hb : s.busy = false)
    (hh : s.host = .detach :: rest) : step s = .next (detach { s with host := rest }) := by
  simp [step, htp, hb, hh]

/-- Settles O15: the walk clause of the invariant gives the next entry and the command it resumes, the CFG clause all that
a command and an attach need. -/
theorem invStatesGoOn : Obligations.InvStatesGoOn := by
  intro s hinv
  cases hp : s.tp with
  | some p =>
    obtain ⟨-, hcall, entries, ht, hend⟩ := hinv.walk p hp
    obtain ⟨e, he⟩ := exists_entry_of_tableHasEnd hend
    rw [step_entry hp ht he]
    exact goesOn_entry hp hcall ht
  | none =>
    have hb : s.busy = false := by rw [hinv.busy_walk, hp]; rfl
    cases hh : s.host with
    | nil => exact ⟨s, stepWaitsWithoutInput s hp (.inl hh)⟩
    | cons input rest =>
      cases input with
      | command w =>
        rw [step_command hp hb hh]
        exact goesOn_command (isCommand_decodeCommand w) hinv.cfg_ok
      | attach =>
        rw [step_attach hp hb hh]
        exact ⟨_, attach_loads ((cfgOk_iff s.cfg).1 hinv.cfg_ok)⟩
      | detach => exact ⟨_, step_detach hp hb hh⟩

end Sys2Proof.Machine

/-! Detach and termination (spec 70_reset_and_hazards.md R262, R272). `EndsWithin n` says of a command's run, or of the
rest of one, that at most `n` port events come before its `Resp`. An error ends within any bound, each access spends one,
and a table spends its entries before the first `TE`, so the bound of a command is the sum along its longest path. -/

namespace Sys2Proof.Machine

/-! ## Detach -/

/-- Settles O10: an idle SCC takes the detach, and releasing the handles is one equation. -/
theorem detachReleasesHandles : Obligations.DetachReleasesHandles := by
  intro s rest htp hb hh
  rw [step_detach htp hb hh, detach, releaseHandles_eq]

/-! ## The number of events of a run -/

/-- From `s` a command ended in `t` after at most `n` events, its `Resp` apart (R272). -/
def EndsWithin (n : Nat) (s t : State) : Prop := t.trace.length ≤ s.trace.length + n + 1

section
variable {n k : Nat} {s b t : State}

theorem EndsWithin.after (h : EndsWithin n b t) (hb : b.trace.length ≤ s.trace.length + k) :
    EndsWithin (k + n) s t := by
  unfold EndsWithin at *
  omega

/-- One event before the rest of the run; any registers may be written with it. -/
theorem EndsWithin.after_event {e : Event} (h : EndsWithin n b t) (hb : b.trace = s.trace ++ [e]) :
    EndsWithin (n + 1) s t := by
  rw [Nat.add_comm]
  exact h.after (by simp [hb])

theorem EndsWithin.after_read {a : Byte} {x : ReadReply} (h : EndsWithin n b t) (hrd : memRead a s = (x, b)) :
    EndsWithin (n + 1) s t := by
  obtain ⟨-, rfl⟩ := Prod.mk.inj hrd
  exact h.after_event (afterRead_trace ..)

theorem EndsWithin.after_write {a v : Byte} {x : Reply} (h : EndsWithin n b t) (hwr : memWrite a v s = (x, b)) :
    EndsWithin (n + 1) s t := by
  obtain ⟨-, rfl⟩ := Prod.mk.inj hwr
  exact h.after_event (afterWrite_trace ..)

/-- The end of a command is its `Resp` and nothing else, on success and on an error (R17, R231). -/
theorem endsWithin_finish (n : Nat) (code : U32) (htr : b.trace = s.trace := by rfl) :
    EndsWithin n s (finish code b) := by
  simp [EndsWithin, finish, htr]

theorem endsWithin_raise (n : Nat) (e : ErrorKind) (s : State) : EndsWithin n s (raise e s) := endsWithin_finish ..

theorem endsWithin_done (n : Nat) (htr : b.trace = s.trace := by rfl) : EndsWithin n s (done b) :=
  endsWithin_finish n _ htr

/-- A notification counts as an event (R272). -/
theorem endsWithin_notify (htr : b.trace = s.trace := by rfl) : EndsWithin 1 s (done (notify b)) :=
  EndsWithin.after_event (b := notify b) (endsWithin_done 0) (by rw [notify, emit_trace, htr])

/-! ## The gate and the tables -/

/-- The gate's refusal makes no event (R170). -/
theorem endsWithin_gated {o : Host.Outcome State Fault Refusal} (h : gated s o = .next t)
    (ho : o = .next t → EndsWithin n s t) : EndsWithin n s t := by
  obtain ⟨-, rfl⟩ | ⟨-, h⟩ := gated_next_cases h
  · exact endsWithin_raise ..
  · exact ho h

theorem endsWithin_gated_next (h : gated s (.next b) = .next t) (hb : EndsWithin n s b) : EndsWithin n s t := by
  refine endsWithin_gated h fun h => ?_
  cases h
  exact hb

/-- A table goes on past entries with no `TE` among them (R204, R207). -/
theorem tableEvents_append {before : List EntryWord} (h : tableHasEnd before = false) (after : List EntryWord) :
    tableEvents (before ++ after) = tableEvents before ++ tableEvents after := by
  induction before with
  | nil => rfl
  | cons e rest ih =>
    obtain ⟨hne, hrest⟩ : addressField e ≠ 0xFF#8 ∧ tableHasEnd rest = false := by simpa [tableHasEnd_cons] using h
    obtain ⟨-, ha, -⟩ | ⟨hk, -⟩ | ⟨hk, -⟩ := entryKind_cases e
    · exact absurd ha hne
    · simp [tableEvents, hk, ih hrest]
    · simp [tableEvents, hk, ih hrest]

theorem tableEvents_packEntry {a v : Byte} (hff : a ≠ 0xFF#8) (hfe : a ≠ 0xFE#8) (after : List EntryWord) :
    tableEvents (packEntry a v :: after) = .wr a v .ok :: tableEvents after := by
  simp [tableEvents, entryKind, hff, hfe]

/-- A table makes at most one event per entry before its first `TE`, a refused write being the last (R206, R272). -/
theorem endsWithin_withTable {T : TableId} {onOk : State → State} (h : withTable T onOk s = .next t)
    (hon : ∀ b, EndsWithin n b (onOk b)) :
    EndsWithin ((tableEvents ((tableOf s.cfg T).getD [])).length + n) s t := by
  obtain ⟨entries, hT, -, -, heq⟩ | ⟨_, before, after, a, v, hT, rfl, hend, hff, hfe, -, -, heq⟩ | ⟨-, heq⟩ :=
    withTable_cases T onOk s <;> rw [heq] at h <;> cases h
  · rw [hT]
    exact (hon _).after (by simp)
  · have hentries : tableEvents (before ++ packEntry a v :: after) =
        tableEvents before ++ .wr a v .ok :: tableEvents after := by
      rw [tableEvents_append hend, tableEvents_packEntry hff hfe]
    rw [hT, Option.getD_some, hentries]
    exact (endsWithin_raise n _ _).after (by simp)

theorem endsWithin_execInit {k : U32} (h : execInit k s = .next t) :
    EndsWithin ((tableEvents ((tableOf s.cfg (.mode k.toNat)).getD [])).length + 1) s t := by
  refine endsWithin_gated h fun h => ?_
  split at h
  · cases h
    exact endsWithin_raise ..
  · next d _ => exact endsWithin_withTable h fun b => endsWithin_notify (b := recordMode k d .configured b)

theorem endsWithin_execResize {k : U32} (h : execResize k s = .next t) :
    EndsWithin ((tableEvents ((tableOf s.cfg (.mode k.toNat)).getD [])).length + 1) s t := by
  refine endsWithin_gated h fun h => ?_
  split at h
  · cases h
    exact endsWithin_raise ..
  · next d _ =>
    have hend (b : State) : EndsWithin 1 b (finishResize k d b) :=
      endsWithin_notify (b := recordMode k d (phaseAfterResize b.phase) b)
    split at h
    · cases h
      exact (hend s).after (Nat.le_add_right ..)
    · exact endsWithin_withTable h hend

/-! ## The timing and gain commands -/

theorem endsWithin_writeHalves (r vt : U32) (s : State) : EndsWithin 3 s (writeHalves r vt s) := by
  unfold writeHalves
  split
  · next hlo => exact (endsWithin_raise ..).after_write hlo
  · next hlo =>
    refine .after_write ?_ hlo
    split
    · next hhi => exact (endsWithin_raise ..).after_write hhi
    · next b hhi => exact (endsWithin_notify (b := retime r vt b)).after_write hhi

theorem endsWithin_programTiming (r vt : U32) (s : State) : EndsWithin 5 s (programTiming r vt s) := by
  unfold programTiming
  split
  · next hrd => exact (endsWithin_raise ..).after_read hrd
  · next hrd =>
    refine .after_read ?_ hrd
    split
    · next hwr => exact (endsWithin_raise ..).after_write hwr
    · next hwr => exact (endsWithin_writeHalves ..).after_write hwr

theorem endsWithin_computeTiming (r : U32) (hts : Nat) (s : State) : EndsWithin 5 s (computeTiming r hts s) := by
  unfold computeTiming
  split
  · exact endsWithin_finish (b := setLog faultBit s) 5 _
  · exact endsWithin_programTiming ..

theorem endsWithin_measureTiming (r : U32) (s : State) : EndsWithin 7 s (measureTiming r s) := by
  unfold measureTiming
  split
  · next hlo => exact (endsWithin_raise ..).after_read hlo
  · next hlo =>
    refine .after_read ?_ hlo
    split
    · next hhi => exact (endsWithin_raise ..).after_read hhi
    · next hhi => exact (endsWithin_computeTiming ..).after_read hhi

theorem endsWithin_execSetFps {r : U32} (h : execSetFps r s = .next t) : EndsWithin 7 s t := by
  refine endsWithin_gated_next h ?_
  split
  · exact endsWithin_measureTiming r s
  · exact endsWithin_raise ..

theorem endsWithin_writeExposure (v : U32) (s : State) : EndsWithin 2 s (writeExposure v s) := by
  rw [writeExposure_eq rfl rfl]
  exact (endsWithin_finish 0 _).after (k := 2) (by simp [accessed])

theorem endsWithin_writeGain (code : Byte) (achieved : U32) (s : State) :
    EndsWithin 1 s (writeGain code achieved s) := by
  unfold writeGain
  split
  · next b hwr => exact (endsWithin_done (b := setResults _ _ b) 0).after_write hwr
  · next b hwr => exact (endsWithin_finish (b := setResults _ _ b) 0 _).after_write hwr

/-! ## `DETECT` -/

/-- A pin's stage is its request and two events per level of its pulse (R173, R174). -/
theorem length_pinEvents_le (pin : Option Nat) (answer : Reply) (seq : List (Level × Nat)) :
    (pinEvents pin answer seq).length ≤ 1 + 2 * seq.length := by
  cases pin with
  | none => simp [pinEvents]
  | some p =>
    cases answer with
    | err => simp [pinEvents]
    | ok => simp [pinEvents]; omega

/-- Both pin stages of `DETECT`: the three levels of the reset pulse, and the configured ones (R10, R173, R174). -/
theorem length_afterPins_le (s : State) :
    (afterPins s).trace.length ≤ s.trace.length + (8 + 2 * s.cfg.pwdnSeq.length) := by
  have hrst := length_pinEvents_le s.cfg.resetPin (resetAnswer s)
    [(.high, s.cfg.tRst1), (.low, s.cfg.tRst2), (.high, s.cfg.tRst3)]
  have hpwdn := length_pinEvents_le s.cfg.pwdnPin (pwdnAnswer s) s.cfg.pwdnSeq
  simp only [afterPins, List.length_append, List.length_cons, List.length_nil] at *
  omega

/-- In `PreDetect` the pin stages come before at most two reads (R175). -/
theorem DetectEnd.endsWithin (h : DetectEnd s t) : EndsWithin (10 + 2 * s.cfg.pwdnSeq.length) s t := by
  have hreads : EndsWithin 2 (afterPins s) t := by
    cases h with
    | ok _ _ ht | high _ _ _ ht | low _ _ _ _ ht =>
      simp [ht, EndsWithin, failDetect, raise, done, finish, accessed]
  rw [show 10 + 2 * s.cfg.pwdnSeq.length = (8 + 2 * s.cfg.pwdnSeq.length) + 2 by omega]
  exact hreads.after (length_afterPins_le s)

theorem endsWithin_detect {a : Byte} {v : U32} (h : exec (.detect a v) s = .next t) :
    EndsWithin (10 + 2 * s.cfg.pwdnSeq.length) s t := by
  cases hd : detected s with
  | true =>
    rw [exec_detect_of_detected hd] at h
    cases h
    exact endsWithin_done _
  | false =>
    rcases (detected_eq_false_iff s).1 hd with hp | hp
    · rw [exec_detect_of_preDetect hp] at h
      cases h
      exact (detectEnd_identityCheck s).endsWithin
    · rw [exec_detect_of_detectFailed hp] at h
      cases h
      exact endsWithin_raise ..

end

/-! ## Every command -/

/-- Settles O25: each command ends within its bound, and one that touches no device makes no event at all. -/
theorem commandEventsAreBounded : Obligations.CommandEventsAreBounded := by
  intro i s t hi h
  change EndsWithin (eventBound s i) s t
  cases i with
  | detect => exact endsWithin_detect h
  | init => exact endsWithin_execInit h
  | resize => exact endsWithin_execResize h
  | streamOn | finishChange | streamOff | prepareChange =>
    exact endsWithin_gated h fun h => endsWithin_withTable (n := 0) h fun b => endsWithin_done 0
  | setFps => exact endsWithin_execSetFps h
  | setIntegrationTime => exact endsWithin_gated_next h (endsWithin_writeExposure ..)
  | setAnalogGain => exact endsWithin_gated_next h (endsWithin_writeGain ..)
  | setDigitalGain | getBlackLevel | gainEncode | gainDecode | dgainEncode | unknown =>
    obtain ⟨b, hb, -, htr⟩ := exec_of_no_device hi rfl nofun s
    obtain rfl : done b = t := by simpa [hb] using h
    exact endsWithin_done 0 htr
  | te | td | tw => cases hi

end Sys2Proof.Machine
